-- ==== Sys2Proof/Word.lean ====
section
/-! DEFINITION. The two word types of the machine: a data byte and an address (00_scope.md R6, R8).
The helpers that take them apart and put them together are in Machine/Bits.lean. -/

namespace Sys2Proof

/-- `u8` of R8: the width of A, X, Y, S and of every memory cell (R6). -/
abbrev Byte := BitVec 8

/-- `u16` of R8: the width of PC and of a CPU address (R6). -/
abbrev Word := BitVec 16

end Sys2Proof
end

