-- ==== Sys2Proof/Machine/Bits.lean ====
section
/-! DEFINITION. Byte, word and bit-field helpers of the notation (00_scope.md R8, R9). -/

namespace Sys2Proof.Machine

/-- `hi8(w)` = `w[15:8]` (R8). It is also the page of an address (R136). -/
def hi8 (w : Word) : Byte := w.extractLsb' 8 8

/-- `lo8(w)` = `w[7:0]` (R8). -/
def lo8 (w : Word) : Byte := w.extractLsb' 0 8

/-- `{h, l}` = h * 256 + l (R8): little-endian words are assembled here only (R69). -/
def word (h l : Byte) : Word := h ++ l

/-- `zext_16(b)` (R9). -/
def zext16 (b : Byte) : Word := b.setWidth 16

/-- `sext_16(b)` (R9): adding it modulo 65536 adds `signed8(b)`. -/
def sext16 (b : Byte) : Word := if b.getLsbD 7 then zext16 b + 0xFF00#16 else zext16 b

/-- A flag as the integer 0 or 1 (R8 `bit`), at the width of a byte. -/
def bitByte (b : Bool) : Byte := if b then 1#8 else 0#8

end Sys2Proof.Machine
end

