-- ==== Sys2Proof/AddrMode.lean ====
section
/-! DEFINITION. The addressing modes with their operand bytes (30_encoding.md R103, R104), and for
each group of instructions the modes it exists with (R105), so that a form the table lacks cannot be
written down. Operand fields: `imm8`, `zp` and `rel8` are a Byte, `abs16` is a Word. -/

namespace Sys2Proof

/-- The eight modes with an effective address, used by loads, stores and read-modify-write. -/
inductive MemMode where
  | zp (b : Byte)    -- $nn
  | zpx (b : Byte)   -- $nn,X
  | zpy (b : Byte)   -- $nn,Y
  | abs (w : Word)   -- $nnnn
  | abx (w : Word)   -- $nnnn,X
  | aby (w : Word)   -- $nnnn,Y
  | izx (b : Byte)   -- ($nn,X)
  | izy (b : Byte)   -- ($nn),Y
  deriving DecidableEq, Repr

/-- What `LoadOperand` of a read instruction loads (40_addressing_modes.md R137). -/
inductive ReadOperand where
  | imm (b : Byte)
  | mem (m : MemMode)
  deriving DecidableEq, Repr

/-- Where a read-modify-write instruction loads its operand and stores its result (R122, R137). -/
inductive ModOperand where
  | acc
  | mem (m : MemMode)
  deriving DecidableEq, Repr

/-- The eight forms of LDA, ADC, SBC, AND, ORA, EOR, CMP. -/
inductive AluForm where
  | imm (b : Byte) | zp (b : Byte) | zpx (b : Byte) | abs (w : Word)
  | abx (w : Word) | aby (w : Word) | izx (b : Byte) | izy (b : Byte)
  deriving DecidableEq, Repr

/-- The seven forms of STA. -/
inductive StaForm where
  | zp (b : Byte) | zpx (b : Byte) | abs (w : Word)
  | abx (w : Word) | aby (w : Word) | izx (b : Byte) | izy (b : Byte)
  deriving DecidableEq, Repr

/-- The five forms of LDX. -/
inductive LdxForm where
  | imm (b : Byte) | zp (b : Byte) | zpy (b : Byte) | abs (w : Word) | aby (w : Word)
  deriving DecidableEq, Repr

/-- The five forms of LDY. -/
inductive LdyForm where
  | imm (b : Byte) | zp (b : Byte) | zpx (b : Byte) | abs (w : Word) | abx (w : Word)
  deriving DecidableEq, Repr

/-- The three forms of STX. -/
inductive StxForm where
  | zp (b : Byte) | zpy (b : Byte) | abs (w : Word)
  deriving DecidableEq, Repr

/-- The three forms of STY. -/
inductive StyForm where
  | zp (b : Byte) | zpx (b : Byte) | abs (w : Word)
  deriving DecidableEq, Repr

/-- The three forms of CPX and CPY. -/
inductive CpForm where
  | imm (b : Byte) | zp (b : Byte) | abs (w : Word)
  deriving DecidableEq, Repr

/-- The two forms of BIT. -/
inductive BitForm where
  | zp (b : Byte) | abs (w : Word)
  deriving DecidableEq, Repr

/-- The four forms of INC and DEC. -/
inductive IncForm where
  | zp (b : Byte) | zpx (b : Byte) | abs (w : Word) | abx (w : Word)
  deriving DecidableEq, Repr

/-- The five forms of ASL, LSR, ROL, ROR. -/
inductive ShiftForm where
  | acc | zp (b : Byte) | zpx (b : Byte) | abs (w : Word) | abx (w : Word)
  deriving DecidableEq, Repr

/-- The two forms of JMP. -/
inductive JmpForm where
  | abs (w : Word) | ind (w : Word)
  deriving DecidableEq, Repr

end Sys2Proof
end

