-- ==== Sys2Proof/Syntax.lean ====
section
/-! DEFINITION. The instructions of spec/opcode_table.json. The table has one row per opcode byte; a
row is one constructor of `Instr` at one form of its addressing mode (or, for the 105 rows `UND`, at
one opcode value), so the 256 rows and the shapes of `Instr` correspond one to one: `Instr.opcode`
in Decode.lean is that correspondence (log 1). -/

namespace Sys2Proof

/-- The 56 documented instructions and UND, by the file of the spec that gives their meaning. -/
inductive Instr where
  -- 41_load_store_transfer.md R140 to R151
  | lda (m : AluForm)
  | ldx (m : LdxForm)
  | ldy (m : LdyForm)
  | sta (m : StaForm)
  | stx (m : StxForm)
  | sty (m : StyForm)
  | tax
  | tay
  | txa
  | tya
  | tsx
  | txs
  -- 42_arithmetic_logic.md R160 to R168
  | adc (m : AluForm)
  | sbc (m : AluForm)
  | and (m : AluForm)
  | ora (m : AluForm)
  | eor (m : AluForm)
  | cmp (m : AluForm)
  | cpx (m : CpForm)
  | cpy (m : CpForm)
  | bit (m : BitForm)
  -- 43_inc_dec_shift.md R180 to R189
  | inc (m : IncForm)
  | inx
  | iny
  | dec (m : IncForm)
  | dex
  | dey
  | asl (m : ShiftForm)
  | lsr (m : ShiftForm)
  | rol (m : ShiftForm)
  | ror (m : ShiftForm)
  -- 44_control_flow.md R200 to R211
  | jmp (m : JmpForm)
  | jsr (w : Word)
  | rts
  | bcc (off : Byte)
  | bcs (off : Byte)
  | beq (off : Byte)
  | bne (off : Byte)
  | bmi (off : Byte)
  | bpl (off : Byte)
  | bvc (off : Byte)
  | bvs (off : Byte)
  -- 45_stack_flags_system.md R220 to R233
  | pha
  | php
  | pla
  | plp
  | clc
  | sec
  | cli
  | sei
  | clv
  | cld
  | sed
  | nop
  | brk
  | rti
  -- 46_undefined_opcodes.md R240: an undefined opcode, by its value
  | und (op : Byte)
  deriving DecidableEq, Repr

end Sys2Proof
end

