-- ==== Sys2Proof/Decode.lean ====
section
/-! DEFINITION. The decoder and the encoder, both from the tables of 30_encoding.md (R101, R105, R106).
Decoding is a pure function of the opcode byte and the operand bytes (R112) and total: the only
rejection is of a byte list that ends before the instruction does. -/

namespace Sys2Proof

open Machine (hi8 lo8 word)

/-- What an opcode byte selects: its format (R101) and the instruction as a function of the operand
field (R103). -/
inductive OpcodeRow where
  | f1 (i : Instr)
  | f2 (i : Byte → Instr)
  | f3 (i : Word → Instr)

/-- Row 0x of the matrix of R106. -/
def opcodeRow0 : List OpcodeRow := [
  .f1 .brk,
  .f2 (fun o => .ora (.izx o)),
  .f1 (.und 0x02#8),
  .f1 (.und 0x03#8),
  .f1 (.und 0x04#8),
  .f2 (fun o => .ora (.zp o)),
  .f2 (fun o => .asl (.zp o)),
  .f1 (.und 0x07#8),
  .f1 .php,
  .f2 (fun o => .ora (.imm o)),
  .f1 (.asl .acc),
  .f1 (.und 0x0B#8),
  .f1 (.und 0x0C#8),
  .f3 (fun o => .ora (.abs o)),
  .f3 (fun o => .asl (.abs o)),
  .f1 (.und 0x0F#8) ]

/-- Row 1x of the matrix of R106. -/
def opcodeRow1 : List OpcodeRow := [
  .f2 .bpl,
  .f2 (fun o => .ora (.izy o)),
  .f1 (.und 0x12#8),
  .f1 (.und 0x13#8),
  .f1 (.und 0x14#8),
  .f2 (fun o => .ora (.zpx o)),
  .f2 (fun o => .asl (.zpx o)),
  .f1 (.und 0x17#8),
  .f1 .clc,
  .f3 (fun o => .ora (.aby o)),
  .f1 (.und 0x1A#8),
  .f1 (.und 0x1B#8),
  .f1 (.und 0x1C#8),
  .f3 (fun o => .ora (.abx o)),
  .f3 (fun o => .asl (.abx o)),
  .f1 (.und 0x1F#8) ]

/-- Row 2x of the matrix of R106. -/
def opcodeRow2 : List OpcodeRow := [
  .f3 .jsr,
  .f2 (fun o => .and (.izx o)),
  .f1 (.und 0x22#8),
  .f1 (.und 0x23#8),
  .f2 (fun o => .bit (.zp o)),
  .f2 (fun o => .and (.zp o)),
  .f2 (fun o => .rol (.zp o)),
  .f1 (.und 0x27#8),
  .f1 .plp,
  .f2 (fun o => .and (.imm o)),
  .f1 (.rol .acc),
  .f1 (.und 0x2B#8),
  .f3 (fun o => .bit (.abs o)),
  .f3 (fun o => .and (.abs o)),
  .f3 (fun o => .rol (.abs o)),
  .f1 (.und 0x2F#8) ]

/-- Row 3x of the matrix of R106. -/
def opcodeRow3 : List OpcodeRow := [
  .f2 .bmi,
  .f2 (fun o => .and (.izy o)),
  .f1 (.und 0x32#8),
  .f1 (.und 0x33#8),
  .f1 (.und 0x34#8),
  .f2 (fun o => .and (.zpx o)),
  .f2 (fun o => .rol (.zpx o)),
  .f1 (.und 0x37#8),
  .f1 .sec,
  .f3 (fun o => .and (.aby o)),
  .f1 (.und 0x3A#8),
  .f1 (.und 0x3B#8),
  .f1 (.und 0x3C#8),
  .f3 (fun o => .and (.abx o)),
  .f3 (fun o => .rol (.abx o)),
  .f1 (.und 0x3F#8) ]

/-- Row 4x of the matrix of R106. -/
def opcodeRow4 : List OpcodeRow := [
  .f1 .rti,
  .f2 (fun o => .eor (.izx o)),
  .f1 (.und 0x42#8),
  .f1 (.und 0x43#8),
  .f1 (.und 0x44#8),
  .f2 (fun o => .eor (.zp o)),
  .f2 (fun o => .lsr (.zp o)),
  .f1 (.und 0x47#8),
  .f1 .pha,
  .f2 (fun o => .eor (.imm o)),
  .f1 (.lsr .acc),
  .f1 (.und 0x4B#8),
  .f3 (fun o => .jmp (.abs o)),
  .f3 (fun o => .eor (.abs o)),
  .f3 (fun o => .lsr (.abs o)),
  .f1 (.und 0x4F#8) ]

/-- Row 5x of the matrix of R106. -/
def opcodeRow5 : List OpcodeRow := [
  .f2 .bvc,
  .f2 (fun o => .eor (.izy o)),
  .f1 (.und 0x52#8),
  .f1 (.und 0x53#8),
  .f1 (.und 0x54#8),
  .f2 (fun o => .eor (.zpx o)),
  .f2 (fun o => .lsr (.zpx o)),
  .f1 (.und 0x57#8),
  .f1 .cli,
  .f3 (fun o => .eor (.aby o)),
  .f1 (.und 0x5A#8),
  .f1 (.und 0x5B#8),
  .f1 (.und 0x5C#8),
  .f3 (fun o => .eor (.abx o)),
  .f3 (fun o => .lsr (.abx o)),
  .f1 (.und 0x5F#8) ]

/-- Row 6x of the matrix of R106. -/
def opcodeRow6 : List OpcodeRow := [
  .f1 .rts,
  .f2 (fun o => .adc (.izx o)),
  .f1 (.und 0x62#8),
  .f1 (.und 0x63#8),
  .f1 (.und 0x64#8),
  .f2 (fun o => .adc (.zp o)),
  .f2 (fun o => .ror (.zp o)),
  .f1 (.und 0x67#8),
  .f1 .pla,
  .f2 (fun o => .adc (.imm o)),
  .f1 (.ror .acc),
  .f1 (.und 0x6B#8),
  .f3 (fun o => .jmp (.ind o)),
  .f3 (fun o => .adc (.abs o)),
  .f3 (fun o => .ror (.abs o)),
  .f1 (.und 0x6F#8) ]

/-- Row 7x of the matrix of R106. -/
def opcodeRow7 : List OpcodeRow := [
  .f2 .bvs,
  .f2 (fun o => .adc (.izy o)),
  .f1 (.und 0x72#8),
  .f1 (.und 0x73#8),
  .f1 (.und 0x74#8),
  .f2 (fun o => .adc (.zpx o)),
  .f2 (fun o => .ror (.zpx o)),
  .f1 (.und 0x77#8),
  .f1 .sei,
  .f3 (fun o => .adc (.aby o)),
  .f1 (.und 0x7A#8),
  .f1 (.und 0x7B#8),
  .f1 (.und 0x7C#8),
  .f3 (fun o => .adc (.abx o)),
  .f3 (fun o => .ror (.abx o)),
  .f1 (.und 0x7F#8) ]

/-- Row 8x of the matrix of R106. -/
def opcodeRow8 : List OpcodeRow := [
  .f1 (.und 0x80#8),
  .f2 (fun o => .sta (.izx o)),
  .f1 (.und 0x82#8),
  .f1 (.und 0x83#8),
  .f2 (fun o => .sty (.zp o)),
  .f2 (fun o => .sta (.zp o)),
  .f2 (fun o => .stx (.zp o)),
  .f1 (.und 0x87#8),
  .f1 .dey,
  .f1 (.und 0x89#8),
  .f1 .txa,
  .f1 (.und 0x8B#8),
  .f3 (fun o => .sty (.abs o)),
  .f3 (fun o => .sta (.abs o)),
  .f3 (fun o => .stx (.abs o)),
  .f1 (.und 0x8F#8) ]

/-- Row 9x of the matrix of R106. -/
def opcodeRow9 : List OpcodeRow := [
  .f2 .bcc,
  .f2 (fun o => .sta (.izy o)),
  .f1 (.und 0x92#8),
  .f1 (.und 0x93#8),
  .f2 (fun o => .sty (.zpx o)),
  .f2 (fun o => .sta (.zpx o)),
  .f2 (fun o => .stx (.zpy o)),
  .f1 (.und 0x97#8),
  .f1 .tya,
  .f3 (fun o => .sta (.aby o)),
  .f1 .txs,
  .f1 (.und 0x9B#8),
  .f1 (.und 0x9C#8),
  .f3 (fun o => .sta (.abx o)),
  .f1 (.und 0x9E#8),
  .f1 (.und 0x9F#8) ]

/-- Row Ax of the matrix of R106. -/
def opcodeRowA : List OpcodeRow := [
  .f2 (fun o => .ldy (.imm o)),
  .f2 (fun o => .lda (.izx o)),
  .f2 (fun o => .ldx (.imm o)),
  .f1 (.und 0xA3#8),
  .f2 (fun o => .ldy (.zp o)),
  .f2 (fun o => .lda (.zp o)),
  .f2 (fun o => .ldx (.zp o)),
  .f1 (.und 0xA7#8),
  .f1 .tay,
  .f2 (fun o => .lda (.imm o)),
  .f1 .tax,
  .f1 (.und 0xAB#8),
  .f3 (fun o => .ldy (.abs o)),
  .f3 (fun o => .lda (.abs o)),
  .f3 (fun o => .ldx (.abs o)),
  .f1 (.und 0xAF#8) ]

/-- Row Bx of the matrix of R106. -/
def opcodeRowB : List OpcodeRow := [
  .f2 .bcs,
  .f2 (fun o => .lda (.izy o)),
  .f1 (.und 0xB2#8),
  .f1 (.und 0xB3#8),
  .f2 (fun o => .ldy (.zpx o)),
  .f2 (fun o => .lda (.zpx o)),
  .f2 (fun o => .ldx (.zpy o)),
  .f1 (.und 0xB7#8),
  .f1 .clv,
  .f3 (fun o => .lda (.aby o)),
  .f1 .tsx,
  .f1 (.und 0xBB#8),
  .f3 (fun o => .ldy (.abx o)),
  .f3 (fun o => .lda (.abx o)),
  .f3 (fun o => .ldx (.aby o)),
  .f1 (.und 0xBF#8) ]

/-- Row Cx of the matrix of R106. -/
def opcodeRowC : List OpcodeRow := [
  .f2 (fun o => .cpy (.imm o)),
  .f2 (fun o => .cmp (.izx o)),
  .f1 (.und 0xC2#8),
  .f1 (.und 0xC3#8),
  .f2 (fun o => .cpy (.zp o)),
  .f2 (fun o => .cmp (.zp o)),
  .f2 (fun o => .dec (.zp o)),
  .f1 (.und 0xC7#8),
  .f1 .iny,
  .f2 (fun o => .cmp (.imm o)),
  .f1 .dex,
  .f1 (.und 0xCB#8),
  .f3 (fun o => .cpy (.abs o)),
  .f3 (fun o => .cmp (.abs o)),
  .f3 (fun o => .dec (.abs o)),
  .f1 (.und 0xCF#8) ]

/-- Row Dx of the matrix of R106. -/
def opcodeRowD : List OpcodeRow := [
  .f2 .bne,
  .f2 (fun o => .cmp (.izy o)),
  .f1 (.und 0xD2#8),
  .f1 (.und 0xD3#8),
  .f1 (.und 0xD4#8),
  .f2 (fun o => .cmp (.zpx o)),
  .f2 (fun o => .dec (.zpx o)),
  .f1 (.und 0xD7#8),
  .f1 .cld,
  .f3 (fun o => .cmp (.aby o)),
  .f1 (.und 0xDA#8),
  .f1 (.und 0xDB#8),
  .f1 (.und 0xDC#8),
  .f3 (fun o => .cmp (.abx o)),
  .f3 (fun o => .dec (.abx o)),
  .f1 (.und 0xDF#8) ]

/-- Row Ex of the matrix of R106. -/
def opcodeRowE : List OpcodeRow := [
  .f2 (fun o => .cpx (.imm o)),
  .f2 (fun o => .sbc (.izx o)),
  .f1 (.und 0xE2#8),
  .f1 (.und 0xE3#8),
  .f2 (fun o => .cpx (.zp o)),
  .f2 (fun o => .sbc (.zp o)),
  .f2 (fun o => .inc (.zp o)),
  .f1 (.und 0xE7#8),
  .f1 .inx,
  .f2 (fun o => .sbc (.imm o)),
  .f1 .nop,
  .f1 (.und 0xEB#8),
  .f3 (fun o => .cpx (.abs o)),
  .f3 (fun o => .sbc (.abs o)),
  .f3 (fun o => .inc (.abs o)),
  .f1 (.und 0xEF#8) ]

/-- Row Fx of the matrix of R106. -/
def opcodeRowF : List OpcodeRow := [
  .f2 .beq,
  .f2 (fun o => .sbc (.izy o)),
  .f1 (.und 0xF2#8),
  .f1 (.und 0xF3#8),
  .f1 (.und 0xF4#8),
  .f2 (fun o => .sbc (.zpx o)),
  .f2 (fun o => .inc (.zpx o)),
  .f1 (.und 0xF7#8),
  .f1 .sed,
  .f3 (fun o => .sbc (.aby o)),
  .f1 (.und 0xFA#8),
  .f1 (.und 0xFB#8),
  .f1 (.und 0xFC#8),
  .f3 (fun o => .sbc (.abx o)),
  .f3 (fun o => .inc (.abx o)),
  .f1 (.und 0xFF#8) ]

/-- The opcode map: the rows of the matrix of R106 one after another. -/
def opcodeMap : List OpcodeRow :=
  opcodeRow0 ++ opcodeRow1 ++ opcodeRow2 ++ opcodeRow3 ++ opcodeRow4 ++ opcodeRow5 ++ opcodeRow6 ++
  opcodeRow7 ++ opcodeRow8 ++ opcodeRow9 ++ opcodeRowA ++ opcodeRowB ++ opcodeRowC ++ opcodeRowD ++
  opcodeRowE ++ opcodeRowF

/-- The row of an opcode byte (R111: "total: 256 rows"; the map has exactly 256, so the value for a
missing row is never given). -/
def opcodeRow (op : Byte) : OpcodeRow := opcodeMap.getD op.toNat (.f1 (.und op))

/-- Why a byte list is rejected, by name. No opcode is (R107: "None of them traps"). -/
inductive DecodeError where
  | noOpcode         -- the list is empty
  | missingOperand   -- the list ends inside the instruction
  deriving DecidableEq, Repr

/-- The instruction at the head of a byte list and the bytes after it (R100, R101, R103). -/
def decode : List Byte → Except DecodeError (Instr × List Byte)
  | [] => .error .noOpcode
  | op :: rest =>
    match opcodeRow op, rest with
    | .f1 i, _ => .ok (i, rest)
    | .f2 i, b1 :: rest' => .ok (i b1, rest')
    | .f3 i, b1 :: b2 :: rest' => .ok (i (word b2 b1), rest')
    | _, _ => .error .missingOperand

/-- The opcode byte of an instruction: the cell of the table of R105 at its mnemonic and mode. -/
def Instr.opcode : Instr → Byte
  | .lda (.imm _) => 0xA9#8
  | .lda (.zp _) => 0xA5#8
  | .lda (.zpx _) => 0xB5#8
  | .lda (.abs _) => 0xAD#8
  | .lda (.abx _) => 0xBD#8
  | .lda (.aby _) => 0xB9#8
  | .lda (.izx _) => 0xA1#8
  | .lda (.izy _) => 0xB1#8
  | .ldx (.imm _) => 0xA2#8
  | .ldx (.zp _) => 0xA6#8
  | .ldx (.zpy _) => 0xB6#8
  | .ldx (.abs _) => 0xAE#8
  | .ldx (.aby _) => 0xBE#8
  | .ldy (.imm _) => 0xA0#8
  | .ldy (.zp _) => 0xA4#8
  | .ldy (.zpx _) => 0xB4#8
  | .ldy (.abs _) => 0xAC#8
  | .ldy (.abx _) => 0xBC#8
  | .sta (.zp _) => 0x85#8
  | .sta (.zpx _) => 0x95#8
  | .sta (.abs _) => 0x8D#8
  | .sta (.abx _) => 0x9D#8
  | .sta (.aby _) => 0x99#8
  | .sta (.izx _) => 0x81#8
  | .sta (.izy _) => 0x91#8
  | .stx (.zp _) => 0x86#8
  | .stx (.zpy _) => 0x96#8
  | .stx (.abs _) => 0x8E#8
  | .sty (.zp _) => 0x84#8
  | .sty (.zpx _) => 0x94#8
  | .sty (.abs _) => 0x8C#8
  | .tax => 0xAA#8
  | .tay => 0xA8#8
  | .txa => 0x8A#8
  | .tya => 0x98#8
  | .tsx => 0xBA#8
  | .txs => 0x9A#8
  | .adc (.imm _) => 0x69#8
  | .adc (.zp _) => 0x65#8
  | .adc (.zpx _) => 0x75#8
  | .adc (.abs _) => 0x6D#8
  | .adc (.abx _) => 0x7D#8
  | .adc (.aby _) => 0x79#8
  | .adc (.izx _) => 0x61#8
  | .adc (.izy _) => 0x71#8
  | .sbc (.imm _) => 0xE9#8
  | .sbc (.zp _) => 0xE5#8
  | .sbc (.zpx _) => 0xF5#8
  | .sbc (.abs _) => 0xED#8
  | .sbc (.abx _) => 0xFD#8
  | .sbc (.aby _) => 0xF9#8
  | .sbc (.izx _) => 0xE1#8
  | .sbc (.izy _) => 0xF1#8
  | .and (.imm _) => 0x29#8
  | .and (.zp _) => 0x25#8
  | .and (.zpx _) => 0x35#8
  | .and (.abs _) => 0x2D#8
  | .and (.abx _) => 0x3D#8
  | .and (.aby _) => 0x39#8
  | .and (.izx _) => 0x21#8
  | .and (.izy _) => 0x31#8
  | .ora (.imm _) => 0x09#8
  | .ora (.zp _) => 0x05#8
  | .ora (.zpx _) => 0x15#8
  | .ora (.abs _) => 0x0D#8
  | .ora (.abx _) => 0x1D#8
  | .ora (.aby _) => 0x19#8
  | .ora (.izx _) => 0x01#8
  | .ora (.izy _) => 0x11#8
  | .eor (.imm _) => 0x49#8
  | .eor (.zp _) => 0x45#8
  | .eor (.zpx _) => 0x55#8
  | .eor (.abs _) => 0x4D#8
  | .eor (.abx _) => 0x5D#8
  | .eor (.aby _) => 0x59#8
  | .eor (.izx _) => 0x41#8
  | .eor (.izy _) => 0x51#8
  | .cmp (.imm _) => 0xC9#8
  | .cmp (.zp _) => 0xC5#8
  | .cmp (.zpx _) => 0xD5#8
  | .cmp (.abs _) => 0xCD#8
  | .cmp (.abx _) => 0xDD#8
  | .cmp (.aby _) => 0xD9#8
  | .cmp (.izx _) => 0xC1#8
  | .cmp (.izy _) => 0xD1#8
  | .cpx (.imm _) => 0xE0#8
  | .cpx (.zp _) => 0xE4#8
  | .cpx (.abs _) => 0xEC#8
  | .cpy (.imm _) => 0xC0#8
  | .cpy (.zp _) => 0xC4#8
  | .cpy (.abs _) => 0xCC#8
  | .bit (.zp _) => 0x24#8
  | .bit (.abs _) => 0x2C#8
  | .inc (.zp _) => 0xE6#8
  | .inc (.zpx _) => 0xF6#8
  | .inc (.abs _) => 0xEE#8
  | .inc (.abx _) => 0xFE#8
  | .inx => 0xE8#8
  | .iny => 0xC8#8
  | .dec (.zp _) => 0xC6#8
  | .dec (.zpx _) => 0xD6#8
  | .dec (.abs _) => 0xCE#8
  | .dec (.abx _) => 0xDE#8
  | .dex => 0xCA#8
  | .dey => 0x88#8
  | .asl .acc => 0x0A#8
  | .asl (.zp _) => 0x06#8
  | .asl (.zpx _) => 0x16#8
  | .asl (.abs _) => 0x0E#8
  | .asl (.abx _) => 0x1E#8
  | .lsr .acc => 0x4A#8
  | .lsr (.zp _) => 0x46#8
  | .lsr (.zpx _) => 0x56#8
  | .lsr (.abs _) => 0x4E#8
  | .lsr (.abx _) => 0x5E#8
  | .rol .acc => 0x2A#8
  | .rol (.zp _) => 0x26#8
  | .rol (.zpx _) => 0x36#8
  | .rol (.abs _) => 0x2E#8
  | .rol (.abx _) => 0x3E#8
  | .ror .acc => 0x6A#8
  | .ror (.zp _) => 0x66#8
  | .ror (.zpx _) => 0x76#8
  | .ror (.abs _) => 0x6E#8
  | .ror (.abx _) => 0x7E#8
  | .jmp (.abs _) => 0x4C#8
  | .jmp (.ind _) => 0x6C#8
  | .jsr _ => 0x20#8
  | .rts => 0x60#8
  | .bcc _ => 0x90#8
  | .bcs _ => 0xB0#8
  | .beq _ => 0xF0#8
  | .bne _ => 0xD0#8
  | .bmi _ => 0x30#8
  | .bpl _ => 0x10#8
  | .bvc _ => 0x50#8
  | .bvs _ => 0x70#8
  | .pha => 0x48#8
  | .php => 0x08#8
  | .pla => 0x68#8
  | .plp => 0x28#8
  | .clc => 0x18#8
  | .sec => 0x38#8
  | .cli => 0x58#8
  | .sei => 0x78#8
  | .clv => 0xB8#8
  | .cld => 0xD8#8
  | .sed => 0xF8#8
  | .nop => 0xEA#8
  | .brk => 0x00#8
  | .rti => 0x40#8
  | .und op => op

/-- Operand bytes of a form, in memory order (R101, R103). -/
def AluForm.bytes : AluForm → List Byte
  | .imm b => [b]
  | .zp b => [b]
  | .zpx b => [b]
  | .abs w => [lo8 w, hi8 w]
  | .abx w => [lo8 w, hi8 w]
  | .aby w => [lo8 w, hi8 w]
  | .izx b => [b]
  | .izy b => [b]

/-- Operand bytes of a form, in memory order (R101, R103). -/
def StaForm.bytes : StaForm → List Byte
  | .zp b => [b]
  | .zpx b => [b]
  | .abs w => [lo8 w, hi8 w]
  | .abx w => [lo8 w, hi8 w]
  | .aby w => [lo8 w, hi8 w]
  | .izx b => [b]
  | .izy b => [b]

/-- Operand bytes of a form, in memory order (R101, R103). -/
def LdxForm.bytes : LdxForm → List Byte
  | .imm b => [b]
  | .zp b => [b]
  | .zpy b => [b]
  | .abs w => [lo8 w, hi8 w]
  | .aby w => [lo8 w, hi8 w]

/-- Operand bytes of a form, in memory order (R101, R103). -/
def LdyForm.bytes : LdyForm → List Byte
  | .imm b => [b]
  | .zp b => [b]
  | .zpx b => [b]
  | .abs w => [lo8 w, hi8 w]
  | .abx w => [lo8 w, hi8 w]

/-- Operand bytes of a form, in memory order (R101, R103). -/
def StxForm.bytes : StxForm → List Byte
  | .zp b => [b]
  | .zpy b => [b]
  | .abs w => [lo8 w, hi8 w]

/-- Operand bytes of a form, in memory order (R101, R103). -/
def StyForm.bytes : StyForm → List Byte
  | .zp b => [b]
  | .zpx b => [b]
  | .abs w => [lo8 w, hi8 w]

/-- Operand bytes of a form, in memory order (R101, R103). -/
def CpForm.bytes : CpForm → List Byte
  | .imm b => [b]
  | .zp b => [b]
  | .abs w => [lo8 w, hi8 w]

/-- Operand bytes of a form, in memory order (R101, R103). -/
def BitForm.bytes : BitForm → List Byte
  | .zp b => [b]
  | .abs w => [lo8 w, hi8 w]

/-- Operand bytes of a form, in memory order (R101, R103). -/
def IncForm.bytes : IncForm → List Byte
  | .zp b => [b]
  | .zpx b => [b]
  | .abs w => [lo8 w, hi8 w]
  | .abx w => [lo8 w, hi8 w]

/-- Operand bytes of a form, in memory order (R101, R103). -/
def ShiftForm.bytes : ShiftForm → List Byte
  | .acc => []
  | .zp b => [b]
  | .zpx b => [b]
  | .abs w => [lo8 w, hi8 w]
  | .abx w => [lo8 w, hi8 w]

/-- Operand bytes of a form, in memory order (R101, R103). -/
def JmpForm.bytes : JmpForm → List Byte
  | .abs w => [lo8 w, hi8 w]
  | .ind w => [lo8 w, hi8 w]

/-- The operand bytes that follow the opcode (R101, R103). -/
def Instr.operandBytes : Instr → List Byte
  | .lda m => m.bytes
  | .ldx m => m.bytes
  | .ldy m => m.bytes
  | .sta m => m.bytes
  | .stx m => m.bytes
  | .sty m => m.bytes
  | .tax => []
  | .tay => []
  | .txa => []
  | .tya => []
  | .tsx => []
  | .txs => []
  | .adc m => m.bytes
  | .sbc m => m.bytes
  | .and m => m.bytes
  | .ora m => m.bytes
  | .eor m => m.bytes
  | .cmp m => m.bytes
  | .cpx m => m.bytes
  | .cpy m => m.bytes
  | .bit m => m.bytes
  | .inc m => m.bytes
  | .inx => []
  | .iny => []
  | .dec m => m.bytes
  | .dex => []
  | .dey => []
  | .asl m => m.bytes
  | .lsr m => m.bytes
  | .rol m => m.bytes
  | .ror m => m.bytes
  | .jmp m => m.bytes
  | .jsr w => [lo8 w, hi8 w]
  | .rts => []
  | .bcc off => [off]
  | .bcs off => [off]
  | .beq off => [off]
  | .bne off => [off]
  | .bmi off => [off]
  | .bpl off => [off]
  | .bvc off => [off]
  | .bvs off => [off]
  | .pha => []
  | .php => []
  | .pla => []
  | .plp => []
  | .clc => []
  | .sec => []
  | .cli => []
  | .sei => []
  | .clv => []
  | .cld => []
  | .sed => []
  | .nop => []
  | .brk => []
  | .rti => []
  | .und _ => []

/-- The bytes of an instruction, lowest address first (R101). -/
def encode (i : Instr) : List Byte := i.opcode :: i.operandBytes

/-- `len` of R14: 1, 2 or 3 (R100). -/
def Instr.length (i : Instr) : Nat := 1 + i.operandBytes.length

/-- The `k`-th byte of the instruction whose bits are `w` (first byte least significant), of `nbits`
bits; bits above `nbits` are zero. -/
def tableByte (nbits w k : Nat) : Byte := BitVec.ofNat 8 ((w % 2 ^ nbits) / 256 ^ k)

/-- The instruction the decoder reads from a table word: its bytes in memory order, then zeros. -/
def decodeTableWord (nbits w : Nat) : Option Instr :=
  match decode [tableByte nbits w 0, tableByte nbits w 1, tableByte nbits w 2] with
  | .ok (i, _) => some i
  | .error _ => none

end Sys2Proof
end

