-- ==== Sys2Proof/Machine/Cells.lean ====
section
/-! DEFINITION. Storage arrays as plain data in one canonical form: the list of the cells that do
not hold zero, by strictly rising index. An unlisted cell reads as zero: every array of this
machine is all zero after reset (10_state.md R38), and a PRG byte that an image does not list is
$00 (95_test_vectors.md section 2). -/

namespace Sys2Proof.Machine

/-- An array of `w`-bit cells by index. -/
abbrev Cells (w : Nat) := List (Nat × BitVec w)

/-- An array of bytes: the CPU's RAM, the PPU's arrays and the cartridge's storage. -/
abbrev Memory := List Host.Cell

/-- The value of cell `a`. -/
def Cells.read {w : Nat} : Cells w → Nat → BitVec w
  | [], _ => 0#w
  | (k, b) :: rest, a => if k = a then b else Cells.read rest a

/-- The array with cell `a` holding `v`; a cell that becomes zero leaves the list. -/
def Cells.write {w : Nat} : Cells w → Nat → BitVec w → Cells w
  | [], a, v => if v = 0#w then [] else [(a, v)]
  | (k, b) :: rest, a, v =>
    if a < k then (if v = 0#w then (k, b) :: rest else (a, v) :: (k, b) :: rest)
    else if a = k then (if v = 0#w then rest else (a, v) :: rest)
    else (k, b) :: Cells.write rest a v

/-- Canonical form with every index at least `lo` and below `hi`. -/
def Cells.wfFrom {w : Nat} (hi : Nat) : Nat → Cells w → Bool
  | _, [] => true
  | lo, (k, b) :: rest =>
    decide (lo ≤ k) && decide (k < hi) && decide (b ≠ 0#w) && Cells.wfFrom hi (k + 1) rest

/-- The canonical form of an array of `size` cells: indices strictly rising and below `size`, no
entry equal to zero. -/
def Cells.wf {w : Nat} (size : Nat) (m : Cells w) : Bool := Cells.wfFrom size 0 m

/-- The canonical form of a byte array. -/
def Memory.wf (size : Nat) (m : Memory) : Bool := Cells.wf size m

/-- Read one byte. -/
def Memory.read (m : Memory) (a : Nat) : Byte := Cells.read m a

/-- Write one byte. -/
def Memory.write (m : Memory) (a : Nat) (v : Byte) : Memory := Cells.write m a v

/-- The array that holds `bytes` from index `at` on (20_memory.md R83: bank data of an image). -/
def Memory.ofBytesFrom : Nat → List Byte → Memory
  | _, [] => []
  | k, b :: rest =>
    if b = 0#8 then Memory.ofBytesFrom (k + 1) rest else (k, b) :: Memory.ofBytesFrom (k + 1) rest

/-- The array that holds `bytes` from index 0 on. -/
def Memory.ofBytes (bytes : List Byte) : Memory := Memory.ofBytesFrom 0 bytes

end Sys2Proof.Machine
end

