-- ==== Sys2Proof/Machine/Records.lean ====
section
/-! DEFINITION. The records that State is made of: the six flags, the PPU, the APU, the controller
ports and the cartridge (10_state.md R25, R33 to R36). Data only; what acts on them is in Ppu.lean,
Apu.lean, Pads.lean and Cart.lean. -/

namespace Sys2Proof.Machine

/-- The six status flags and no other (R25). -/
structure Flags where
  c : Bool  -- `P.C` carry
  z : Bool  -- `P.Z` zero
  i : Bool  -- `P.I` interrupt-disable
  d : Bool  -- `P.D` decimal: stored, no arithmetic effect (R169)
  v : Bool  -- `P.V` overflow
  n : Bool  -- `P.N` negative
  deriving DecidableEq, Repr, Inhabited

/-- PPU state (R33). -/
structure Ppu where
  vram : Memory       -- `ppu.vram[0..2047]`
  pal : Memory        -- `ppu.pal[0..31]`
  oam : Memory        -- `ppu.oam[0..255]`
  ctrl : Byte         -- last value written to $2000
  mask : Byte         -- last value written to $2001
  t : BitVec 15       -- scroll/address staging register
  v : BitVec 15       -- current video address
  x : BitVec 3        -- fine horizontal scroll
  w : Bool            -- write-toggle latch
  oamaddr : Byte
  rdbuf : Byte        -- the read buffer of $2007
  scanline : Nat      -- 0..261
  dot : Nat           -- 0..340
  odd : Bool          -- an odd output frame is being scanned
  vblank : Bool
  spr0 : Bool         -- sprite-zero hit
  sprovf : Bool       -- sprite overflow
  deriving DecidableEq, Repr, Inhabited

/-- APU state, timing only (R34). -/
structure Apu where
  mode : Bool         -- false four-step, true five-step
  inhibit : Bool      -- frame IRQ inhibit
  frameIrq : Bool     -- the frame interrupt flag
  fc : Nat            -- CPU cycles since the sequencer last restarted
  deriving DecidableEq, Repr, Inhabited

/-- Controller ports (R35): two pads, two shift registers, one strobe. -/
structure Pads where
  pad0 : Byte
  pad1 : Byte
  shift0 : Byte
  shift1 : Byte
  strobe : Bool
  deriving DecidableEq, Repr, Inhabited

/-- The two mirroring modes a cartridge may report (20_memory.md R76, R80). -/
inductive Mirroring where
  | horizontal
  | vertical
  deriving DecidableEq, Repr, Inhabited

/-- The cartridge variant (R80): the one the spec makes concrete (R82), or any other one, which is
the parameter `CART` (00_scope.md R7) and is known by its iNES mapper number only. -/
inductive CartVariant where
  | nrom
  | other (mapper : Nat)
  deriving DecidableEq, Repr, Inhabited

/-- Cartridge state and constants (R36). `prg`, `prgSize`, `variant`, `mirroring` and, when `chrRam`
is false, `chr` are constants of a run. -/
structure Cart where
  variant : CartVariant
  prgSize : Nat          -- `PRG_SIZE`
  prg : Memory           -- PRG-ROM bytes
  chrRam : Bool          -- the image declared no CHR bank: CHR is RAM
  chr : Memory           -- CHR-ROM or CHR-RAM bytes
  mirroring : Mirroring  -- from the header
  regs : List Byte       -- bank-select registers; none for the no-bank-switch variant
  deriving DecidableEq, Repr, Inhabited

end Sys2Proof.Machine
end

