-- ==== Sys2Proof/Machine/Apu.lean ====
section
/-! DEFINITION. The APU frame sequencer: registers $4015 and $4017 (60_exceptions.md R290, R291) and
its tick (R292). The sound channels have no state (R293). -/

namespace Sys2Proof.Machine

/-- Write $4017 (R290): mode, inhibit, restart. -/
def Apu.writeFrameCounter (u : Apu) (v : Byte) : Apu :=
  { mode := v.getLsbD 7, inhibit := v.getLsbD 6,
    frameIrq := if v.getLsbD 6 then false else u.frameIrq, fc := 0 }

/-- The byte a $4015 read returns (R291): bit 6 is the frame interrupt flag. -/
def Apu.status (u : Apu) : Byte := bitByte u.frameIrq <<< 6

/-- The side effect of a $4015 read (R291). -/
def Apu.afterStatusRead (u : Apu) : Apu := { u with frameIrq := false }

/-- `ApuTick()` (R292). -/
def Apu.tick (u : Apu) : Apu :=
  let fc := u.fc + 1
  if u.mode then { u with fc := if fc = 37282 then 0 else fc }
  else
    { u with
      frameIrq := u.frameIrq || (decide (fc = 29829) && !u.inhibit)
      fc := if fc = 29830 then 0 else fc }

/-- APU state after reset (10_state.md R34, R38). -/
def Apu.reset : Apu := { mode := false, inhibit := false, frameIrq := false, fc := 0 }

end Sys2Proof.Machine
end

