-- ==== Sys2Proof/Machine/Pads.lean ====
section
/-! DEFINITION. The controller ports $4016 and $4017 (60_exceptions.md R297 to R299). In a pad byte
bit 0 is A, then B, Select, Start, Up, Down, Left, and bit 7 is Right; 1 means pressed (R299). -/

namespace Sys2Proof.Machine

/-- Write $4016 (R297): strobe, and while it is 1 both shift registers take the buttons. -/
def Pads.writeStrobe (k : Pads) (v : Byte) : Pads :=
  if v.getLsbD 0 then { k with strobe := true, shift0 := k.pad0, shift1 := k.pad1 }
  else { k with strobe := false }

/-- One shift register after a read (R298): reloaded under strobe, else shifted right with a 1. -/
def shiftAfterRead (strobe : Bool) (pad shift : Byte) : Byte :=
  if strobe then pad else (shift >>> 1) ||| 0x80#8

/-- The bit a read returns, as a byte with bits 7 to 1 zero (R298). -/
def shiftBit (strobe : Bool) (pad shift : Byte) : Byte :=
  (if strobe then pad else shift) &&& 0x01#8

/-- Read $4016, port 0 (R298). -/
def Pads.read0 (k : Pads) : Byte × Pads :=
  (shiftBit k.strobe k.pad0 k.shift0,
   { k with shift0 := shiftAfterRead k.strobe k.pad0 k.shift0 })

/-- Read $4017, port 1 (R298). -/
def Pads.read1 (k : Pads) : Byte × Pads :=
  (shiftBit k.strobe k.pad1 k.shift1,
   { k with shift1 := shiftAfterRead k.strobe k.pad1 k.shift1 })

/-- Controller state after reset (10_state.md R35, R38). -/
def Pads.reset : Pads :=
  { pad0 := 0#8, pad1 := 0#8, shift0 := 0#8, shift1 := 0#8, strobe := false }

end Sys2Proof.Machine
end

