-- ==== Sys2Proof/Config.lean ====
section
/-! DEFINITION. What is fixed for a run: the four numeric parameters with their defaults, the
uninterpreted pixel function `Render`, and the uninterpreted behaviour of cartridge variants other
than the no-bank-switch one (00_scope.md R7; 92_eei_decisions.md section 2). -/

namespace Sys2Proof

/-- The numeric open parameters of R7. State carries one value of this type, which no step changes,
so a statement about every state holds for every choice of them. -/
structure Params where
  openBus : Byte       -- `OPEN_BUS`
  undefLen : Nat       -- `UNDEF_LEN`: 1, 2 or 3
  undefCycles : Nat    -- `UNDEF_CYCLES`: at least 1
  resetWait : Nat      -- `RESET_WAIT`
  deriving DecidableEq, Repr, Inhabited

/-- The defaults, which are normative for the spec (R7, R240, R331). -/
def Params.default : Params :=
  { openBus := 0x00#8, undefLen := 1, undefCycles := 2, resetWait := 0 }

/-- The ranges of the parameters (92_eei_decisions.md section 2). -/
def Params.wf (p : Params) : Bool :=
  decide (1 ≤ p.undefLen) && decide (p.undefLen ≤ 3) && decide (1 ≤ p.undefCycles)

/-- A pixel of the frame buffer. The source leaves the format open ("color-index or RGB"): 24 bits
hold either. DESIGN CHOICE (log 4), safe. -/
abbrev Pixel := BitVec 24

/-- The outputs of `Render` at one dot (60_exceptions.md R285 (a), (b), (c)). -/
structure RenderOut where
  pixels : List (Nat × Pixel)   -- frame-buffer cells it writes, by index `256 * line + column`
  spr0 : Bool                   -- the sprite-zero condition holds here
  sprovf : Bool                 -- the sprite-overflow condition holds here
  v : BitVec 15                 -- `ppu.v` afterwards
  oamaddr : Byte                -- `ppu.oamaddr` afterwards
  deriving Repr, Inhabited

/-- What the picture processor sees of the cartridge while it renders: the CHR contents, the bank
registers that select them, and the mirroring mode by which it reaches its nametables. -/
structure RenderCart where
  chr : Machine.Memory
  regs : List Byte
  mirroring : Machine.Mirroring
  deriving DecidableEq, Repr, Inhabited

/-- `Render` (R285): an uninterpreted, deterministic function of the PPU state, which holds the
raster position, and of what the PPU sees of the cartridge. FREE VALUE (log 4), safe: no proof can see
its value. -/
opaque Config.render : Machine.Ppu → RenderCart → RenderOut

/-- The six capability functions of a cartridge variant and the level of its interrupt output
(20_memory.md R80). A translation answers the offset in the cartridge's CHR storage, if any. -/
structure CartFns where
  cpuRead : Machine.Cart → Word → Byte × List Byte
  cpuWrite : Machine.Cart → Word → Byte → List Byte
  chrRead : Machine.Cart → BitVec 14 → Byte
  chrWriteAt : Machine.Cart → BitVec 14 → Option (BitVec 13)
  notifyScanline : Machine.Cart → List Byte
  mirroring : Machine.Cart → Machine.Mirroring
  irq : Machine.Cart → Bool
  resetRegs : Machine.Cart → List Byte
  deriving Inhabited

/-- The parameter `CART` for the variants the spec names and does not describe, by iNES mapper
number (R80; R5 (e): "the others are a parameter"). FREE VALUE (log 5), safe. -/
opaque Config.cartFns : Nat → CartFns

end Sys2Proof
end

