-- ==== Sys2Proof/Machine/Cart.lean ====
section
/-! DEFINITION. The cartridge interface and the no-bank-switch variant (20_memory.md R80 to R82).
Every access that reaches the cartridge goes through these functions (R64). A variant other than
the no-bank-switch one is the parameter `CART`: its behaviour is `Config.cartFns`. -/

namespace Sys2Proof.Machine

/-- The offset in `PRG` of an address at or above $8000 (R82): a 16 KB image appears twice. -/
def Cart.prgOffset (c : Cart) (a : Word) : Nat := (a.toNat - 0x8000) % c.prgSize

/-- `CART.cpu_read(a)` for $4018 to $FFFF, with the open-bus byte for an address without storage
(R64, R68, R82). -/
def Cart.cpuRead (c : Cart) (openBus : Byte) (a : Word) : Byte × Cart :=
  match c.variant with
  | .nrom => (if 0x8000 ≤ a.toNat then c.prg.read (c.prgOffset a) else openBus, c)
  | .other n =>
    (((Config.cartFns n).cpuRead c a).1, { c with regs := ((Config.cartFns n).cpuRead c a).2 })

/-- `CART.cpu_write(a, v)` (R64, R82: no effect on the no-bank-switch variant). -/
def Cart.cpuWrite (c : Cart) (a : Word) (v : Byte) : Cart :=
  match c.variant with
  | .nrom => c
  | .other n => { c with regs := (Config.cartFns n).cpuWrite c a v }

/-- `CART.chr_read(a)` for PPU addresses $0000 to $1FFF (R80, R82). -/
def Cart.chrRead (c : Cart) (a : BitVec 14) : Byte :=
  match c.variant with
  | .nrom => c.chr.read a.toNat
  | .other n => (Config.cartFns n).chrRead c a

/-- `CART.chr_write(a, v)` (R80, R82): CHR-ROM is never written. -/
def Cart.chrWrite (c : Cart) (a : BitVec 14) (v : Byte) : Cart :=
  if c.chrRam then
    match c.variant with
    | .nrom => { c with chr := c.chr.write a.toNat v }
    | .other n =>
      match (Config.cartFns n).chrWriteAt c a with
      | some o => { c with chr := c.chr.write o.toNat v }
      | none => c
  else c

/-- `CART.notify_scanline()` (R80, R82). -/
def Cart.notifyScanline (c : Cart) : Cart :=
  match c.variant with
  | .nrom => c
  | .other n => { c with regs := (Config.cartFns n).notifyScanline c }

/-- `CART.mirroring()` (R80, R82). -/
def Cart.mirror (c : Cart) : Mirroring :=
  match c.variant with
  | .nrom => c.mirroring
  | .other n => (Config.cartFns n).mirroring c

/-- `CartIrq()`, the level of the variant's interrupt output (R80, R82, 60_exceptions.md R253). -/
def Cart.irq (c : Cart) : Bool :=
  match c.variant with
  | .nrom => false
  | .other n => (Config.cartFns n).irq c

/-- The cartridge's part of a reset: CHR-RAM is cleared and the bank registers take the variant's own
reset value (10_state.md R36, R38); the ROM contents stay (70_reset_and_hazards.md R330). -/
def Cart.reset (c : Cart) : Cart :=
  let c0 := { c with chr := if c.chrRam then [] else c.chr, regs := [] }
  match c.variant with
  | .nrom => c0
  | .other n => { c0 with regs := (Config.cartFns n).resetRegs c0 }

/-- The cartridge of `State.reset`: a 16 KB no-bank-switch cartridge whose PRG bytes are all $00, with
CHR-RAM and horizontal mirroring. DESIGN CHOICE (log 2), unsafe: the spec gives no image. -/
def Cart.blank : Cart :=
  { variant := .nrom, prgSize := 0x4000, prg := [], chrRam := true, chr := [],
    mirroring := .horizontal, regs := [] }

/-- The sizes of the no-bank-switch cartridge (R82): PRG is 16 or 32 KB, CHR is 8 KB. -/
def Cart.nromWf (c : Cart) : Bool :=
  (decide (c.prgSize = 0x4000) || decide (c.prgSize = 0x8000)) &&
    Memory.wf c.prgSize c.prg && Memory.wf 0x2000 c.chr

/-- The form of a cartridge's storage. Of another variant only CHR-RAM, which can change, is held to
its 8,192 bytes (10_state.md R36). -/
def Cart.wf (c : Cart) : Bool :=
  match c.variant with
  | .nrom => c.nromWf
  | .other _ => !c.chrRam || Memory.wf 0x2000 c.chr

end Sys2Proof.Machine
end

