-- ==== Sys2Proof/Machine/Ppu.lean ====
section
/-! DEFINITION. The PPU's address space (20_memory.md R76), its register ports (60_exceptions.md R270
to R278) and the rendering predicate (R284), on the PPU and cartridge records. The raster engine is
in Tick.lean. -/

namespace Sys2Proof.Machine

/-- `rendering_enabled = (ppu.mask[3] | ppu.mask[4])` (R272, R284). -/
def Ppu.renderingEnabled (p : Ppu) : Bool := p.mask.getLsbD 3 || p.mask.getLsbD 4

/-- `rendering` (R284): enabled, and the scanline is visible or the pre-render one. -/
def Ppu.rendering (p : Ppu) : Bool :=
  p.renderingEnabled && (decide (p.scanline ≤ 239) || decide (p.scanline = 261))

/-- `NtIndex(a)` (R76): the cell of video RAM behind a nametable address. -/
def ntIndex (m : Mirroring) (a : BitVec 14) : Nat :=
  let n := (a.toNat / 0x400) % 4
  let o := a.toNat % 0x400
  match m with
  | .horizontal => (n / 2) * 0x400 + o
  | .vertical => (n % 2) * 0x400 + o

/-- `PalIndex(a)` (R76): entries $10, $14, $18, $1C are the cells $00, $04, $08, $0C. -/
def palIndex (a : BitVec 14) : Nat :=
  let i := a &&& 0x1F#14
  if i &&& 0x13#14 = 0x10#14 then (i &&& 0x0F#14).toNat else i.toNat

/-- `PpuRead(a)` (R76). -/
def ppuRead (p : Ppu) (c : Cart) (a : BitVec 14) : Byte :=
  if a.toNat < 0x2000 then c.chrRead a
  else if a.toNat < 0x3F00 then p.vram.read (ntIndex c.mirror a)
  else p.pal.read (palIndex a)

/-- `PpuWrite(a, v)` (R76): a palette write stores the low six bits. -/
def ppuWrite (p : Ppu) (c : Cart) (a : BitVec 14) (v : Byte) : Ppu × Cart :=
  if a.toNat < 0x2000 then (p, c.chrWrite a v)
  else if a.toNat < 0x3F00 then ({ p with vram := p.vram.write (ntIndex c.mirror a) v }, c)
  else ({ p with pal := p.pal.write (palIndex a) (v &&& 0x3F#8) }, c)

/-- The PPU address a $2007 access uses: `ppu.v & $3FFF` (R278). -/
def Ppu.dataAddr (p : Ppu) : BitVec 14 := p.v.setWidth 14

/-- `ppu.v` after a $2007 access: plus 1, or 32 when bit 2 of `ppu.ctrl` is set (R271, R278). -/
def Ppu.nextV (p : Ppu) : BitVec 15 := p.v + (if p.ctrl.getLsbD 2 then 32#15 else 1#15)

/-- Write $2000 PPUCTRL (R271). -/
def Ppu.writeCtrl (p : Ppu) (v : Byte) : Ppu :=
  { p with ctrl := v, t := (p.t &&& 0x73FF#15) ||| ((v &&& 0x03#8).setWidth 15 <<< 10) }

/-- Write $2001 PPUMASK (R272). -/
def Ppu.writeMask (p : Ppu) (v : Byte) : Ppu := { p with mask := v }

/-- The byte a $2002 read returns (R273). -/
def Ppu.status (p : Ppu) (openBus : Byte) : Byte :=
  (bitByte p.vblank <<< 7) ||| (bitByte p.spr0 <<< 6) ||| (bitByte p.sprovf <<< 5) |||
    (openBus &&& 0x1F#8)

/-- The side effect of a $2002 read (R273). -/
def Ppu.afterStatusRead (p : Ppu) : Ppu := { p with vblank := false, w := false }

/-- Write $2003 OAMADDR (R274). -/
def Ppu.writeOamAddr (p : Ppu) (v : Byte) : Ppu := { p with oamaddr := v }

/-- Write $2004 OAMDATA (R275). -/
def Ppu.writeOamData (p : Ppu) (v : Byte) : Ppu :=
  { p with oam := p.oam.write p.oamaddr.toNat v, oamaddr := p.oamaddr + 1#8 }

/-- Read $2004 OAMDATA (R275): no increment, no side effect. -/
def Ppu.readOamData (p : Ppu) : Byte := p.oam.read p.oamaddr.toNat

/-- Write $2005 PPUSCROLL (R276). -/
def Ppu.writeScroll (p : Ppu) (v : Byte) : Ppu :=
  if p.w then
    { p with
      t := (p.t &&& 0x0C1F#15) ||| ((v &&& 0x07#8).setWidth 15 <<< 12) |||
        ((v >>> 3).setWidth 15 <<< 5)
      w := false }
  else
    { p with t := (p.t &&& 0x7FE0#15) ||| (v >>> 3).setWidth 15, x := v.setWidth 3, w := true }

/-- Write $2006 PPUADDR (R277). -/
def Ppu.writeAddr (p : Ppu) (v : Byte) : Ppu :=
  if p.w then
    let t := (p.t &&& 0x7F00#15) ||| v.setWidth 15
    { p with t := t, v := t, w := false }
  else { p with t := (p.t &&& 0x00FF#15) ||| ((v &&& 0x3F#8).setWidth 15 <<< 8), w := true }

/-- Read $2007 PPUDATA outside rendering (R278): buffered below the palette, immediate in it. -/
def Ppu.readData (p : Ppu) (c : Cart) : Byte × Ppu :=
  let a := p.dataAddr
  if a.toNat < 0x3F00 then (p.rdbuf, { p with rdbuf := ppuRead p c a, v := p.nextV })
  else (ppuRead p c a, { p with rdbuf := ppuRead p c (a &&& 0x2FFF#14), v := p.nextV })

/-- Write $2007 PPUDATA outside rendering (R278). -/
def Ppu.writeData (p : Ppu) (c : Cart) (v : Byte) : Ppu × Cart :=
  let r := ppuWrite p c p.dataAddr v
  ({ r.1 with v := p.nextV }, r.2)

/-- PPU state after reset (10_state.md R33, R38). -/
def Ppu.reset : Ppu :=
  { vram := [], pal := [], oam := [], ctrl := 0#8, mask := 0#8, t := 0#15, v := 0#15, x := 0#3,
    w := false, oamaddr := 0#8, rdbuf := 0#8, scanline := 0, dot := 0, odd := false,
    vblank := false, spr0 := false, sprovf := false }

end Sys2Proof.Machine
end

