-- ==== Sys2Proof/Machine/State.lean ====
section
/-! DEFINITION. The machine's state as plain data (10_state.md R20 to R37), the reasons a step can
stop, and the state after reset (10_state.md R38, 70_reset_and_hazards.md R330). The two lines of
R28: `nmiPending` is stored, `irq_pending` is computed from its sources (`State.irqPending` in
Ops.lean). INVENTORY.md lists every field with its rule and its reset value. -/

namespace Sys2Proof.Machine

/-- A fault. The machine has none (00_scope.md R13; 93_implementation_defined.md: "No behaviour of
this machine is treated as `fault`"), so no value of this type exists. -/
inductive Fault where
  deriving DecidableEq, Repr

/-- A step the model does not define. -/
inductive Refusal where
  /-- Raised by an arm of `exec` whose instruction has no meaning yet; no arm does. Safe. -/
  | notModelled (mnemonic : String)
  /-- Raised by a read or write of PPU register 7 ($2007 and its mirrors) while `rendering` holds
  (60_exceptions.md R278, 93_implementation_defined.md U5: "refuse"). Safe: the machine stops. -/
  | ppuDataWhileRendering
  deriving DecidableEq, Repr

/-- The whole state. -/
structure State where
  a : Byte                -- `A` (R21)
  x : Byte                -- `X` (R22)
  y : Byte                -- `Y` (R22)
  sp : Byte               -- `S` (R23)
  pc : Word               -- `PC` (R24)
  p : Flags               -- the six flags (R25)
  nmiPending : Bool       -- `nmi_pending` (R28)
  wait : Nat              -- CPU cycles before the next boundary action (R29)
  cyc : Nat               -- CPU cycles since reset (R29)
  dmaExtra : Nat          -- `dma_extra` (R29)
  ram : Memory            -- `ram[0..2047]` (R32)
  ppu : Ppu               -- (R33)
  frameBuf : Cells 24     -- 256 by 240 pixels, by `256 * line + column` (R33)
  apu : Apu               -- (R34)
  pads : Pads             -- (R35)
  cart : Cart             -- (R36)
  frameComplete : Bool    -- `frame_complete` (R37)
  params : Params         -- `OPEN_BUS`, `UNDEF_LEN`, `UNDEF_CYCLES`, `RESET_WAIT` (00_scope.md R7)
  deriving DecidableEq, Repr

/-- The flags after reset: only `P.I` is 1 (R38). -/
def Flags.reset : Flags :=
  { c := false, z := false, i := true, d := false, v := false, n := false }

/-- `PC` after reset: the vector at $FFFC, low byte first, read through the cartridge after its own
reset (R38; 70_reset_and_hazards.md R330 step 2). -/
def resetVector (openBus : Byte) (c : Cart) : Word × Cart :=
  let lo := c.cpuRead openBus 0xFFFC#16
  let hi := lo.2.cpuRead openBus 0xFFFD#16
  (word hi.1 lo.1, hi.2)

/-- `Reset()` with parameters `params` and cartridge `c` (R330): every state element at the value of
the table of R38. -/
def State.resetWith (params : Params) (c : Cart) : State :=
  let v := resetVector params.openBus c.reset
  { a := 0x00#8, x := 0x00#8, y := 0x00#8, sp := 0xFD#8, pc := v.1, p := Flags.reset,
    nmiPending := false, wait := params.resetWait, cyc := 0, dmaExtra := 0, ram := [],
    ppu := Ppu.reset, frameBuf := [], apu := Apu.reset, pads := Pads.reset, cart := v.2,
    frameComplete := false, params := params }

/-- The machine right after reset, with the default parameters and no program in the cartridge
(log 2). -/
def State.reset : State := State.resetWith Params.default Cart.blank

end Sys2Proof.Machine
end

