-- ==== Sys2Proof/Machine/Update.lean ====
section
/-! DEFINITION. One named update per field of State. `params` has none: no step changes it. -/

namespace Sys2Proof.Machine

/-- `s` with `a` replaced. -/
def State.setA (s : State) (v : Byte) : State := { s with a := v }

/-- `s` with `x` replaced. -/
def State.setX (s : State) (v : Byte) : State := { s with x := v }

/-- `s` with `y` replaced. -/
def State.setY (s : State) (v : Byte) : State := { s with y := v }

/-- `s` with `sp` replaced. -/
def State.setSp (s : State) (v : Byte) : State := { s with sp := v }

/-- `s` with `pc` replaced. -/
def State.setPc (s : State) (v : Word) : State := { s with pc := v }

/-- `s` with `p` replaced. -/
def State.setP (s : State) (v : Flags) : State := { s with p := v }

/-- `s` with `nmiPending` replaced. -/
def State.setNmiPending (s : State) (v : Bool) : State := { s with nmiPending := v }

/-- `s` with `wait` replaced. -/
def State.setWait (s : State) (v : Nat) : State := { s with wait := v }

/-- `s` with `cyc` replaced. -/
def State.setCyc (s : State) (v : Nat) : State := { s with cyc := v }

/-- `s` with `dmaExtra` replaced. -/
def State.setDmaExtra (s : State) (v : Nat) : State := { s with dmaExtra := v }

/-- `s` with `ram` replaced. -/
def State.setRam (s : State) (v : Memory) : State := { s with ram := v }

/-- `s` with `ppu` replaced. -/
def State.setPpu (s : State) (v : Ppu) : State := { s with ppu := v }

/-- `s` with `frameBuf` replaced. -/
def State.setFrameBuf (s : State) (v : Cells 24) : State := { s with frameBuf := v }

/-- `s` with `apu` replaced. -/
def State.setApu (s : State) (v : Apu) : State := { s with apu := v }

/-- `s` with `pads` replaced. -/
def State.setPads (s : State) (v : Pads) : State := { s with pads := v }

/-- `s` with `cart` replaced. -/
def State.setCart (s : State) (v : Cart) : State := { s with cart := v }

/-- `s` with `frameComplete` replaced. -/
def State.setFrameComplete (s : State) (v : Bool) : State := { s with frameComplete := v }

end Sys2Proof.Machine
end

