-- ==== Sys2Proof/Machine/Flags.lean ====
section
/-! DEFINITION. Every flag computation and every 8-bit operation of the instruction set (00_scope.md
R12, 10_state.md R27, 42_arithmetic_logic.md, 43_inc_dec_shift.md). -/

namespace Sys2Proof.Machine

/-- `SetZN(v)` (R12). -/
def Flags.setZN (f : Flags) (v : Byte) : Flags := { f with z := decide (v = 0#8), n := v.getLsbD 7 }

/-- `PackP(B)`, the status image (R27): N V 1 B D I Z C. -/
def Flags.pack (f : Flags) (brk : Bool) : Byte :=
  (bitByte f.n <<< 7) ||| (bitByte f.v <<< 6) ||| 0x20#8 ||| (bitByte brk <<< 4) |||
    (bitByte f.d <<< 3) ||| (bitByte f.i <<< 2) ||| (bitByte f.z <<< 1) ||| bitByte f.c

/-- `UnpackP(b)` (R27): bits 5 and 4 are ignored. -/
def Flags.unpack (b : Byte) : Flags :=
  { c := b.getLsbD 0, z := b.getLsbD 1, i := b.getLsbD 2, d := b.getLsbD 3, v := b.getLsbD 6,
    n := b.getLsbD 7 }

/-- The adder of R160: the integer `A + M + P.C`. -/
def adderSum (a m : Byte) (carry : Bool) : Nat := a.toNat + m.toNat + carry.toNat

/-- The result byte of the adder, `sum & $FF` (R160). -/
def adderResult (a m : Byte) (carry : Bool) : Byte := BitVec.ofNat 8 (adderSum a m carry)

/-- The flags of the adder (R160): carry out of bit 7, signed overflow, zero, negative. -/
def Flags.adder (f : Flags) (a m : Byte) : Flags :=
  let r := adderResult a m f.c
  Flags.setZN
    { f with
      c := decide (0xFF < adderSum a m f.c)
      v := decide (((a ^^^ r) &&& (m ^^^ r) &&& 0x80#8) ≠ 0#8) }
    r

/-- The flags of a comparison (R165): unsigned order, equality, bit 7 of the wrapped difference. -/
def Flags.compare (f : Flags) (r m : Byte) : Flags :=
  { f with c := decide (m.toNat ≤ r.toNat), z := decide (r = m), n := (r - m).getLsbD 7 }

/-- The flags of BIT (R168). -/
def Flags.bitTest (f : Flags) (a m : Byte) : Flags :=
  { f with z := decide (a &&& m = 0#8), n := m.getLsbD 7, v := m.getLsbD 6 }

/-- INC (R180): the result and the flags. -/
def incStep (m : Byte) (f : Flags) : Byte × Flags := (m + 1#8, f.setZN (m + 1#8))

/-- DEC (R183). -/
def decStep (m : Byte) (f : Flags) : Byte × Flags := (m - 1#8, f.setZN (m - 1#8))

/-- ASL (R186): bit 7 to carry, 0 into bit 0. -/
def aslStep (m : Byte) (f : Flags) : Byte × Flags :=
  let r := m <<< 1
  (r, Flags.setZN { f with c := m.getLsbD 7 } r)

/-- LSR (R187): bit 0 to carry, 0 into bit 7. -/
def lsrStep (m : Byte) (f : Flags) : Byte × Flags :=
  let r := m >>> 1
  (r, Flags.setZN { f with c := m.getLsbD 0 } r)

/-- ROL (R188): the old carry enters bit 0. -/
def rolStep (m : Byte) (f : Flags) : Byte × Flags :=
  let r := (m <<< 1) ||| bitByte f.c
  (r, Flags.setZN { f with c := m.getLsbD 7 } r)

/-- ROR (R189): the old carry enters bit 7. -/
def rorStep (m : Byte) (f : Flags) : Byte × Flags :=
  let r := (m >>> 1) ||| (bitByte f.c <<< 7)
  (r, Flags.setZN { f with c := m.getLsbD 0 } r)

end Sys2Proof.Machine
end

