-- ==== Sys2Proof/Machine/Ops.lean ====
section
/-! DEFINITION. The named operations over the bus, the stack and the interrupt mechanism: the bus
decoder (20_memory.md R60 to R64), OAM DMA (60_exceptions.md R296), push and pull
(40_addressing_modes.md R133, R134), interrupt entry (60_exceptions.md R256) and the return from it
(45_stack_flags_system.md R233). -/

namespace Sys2Proof.Machine

/-! ### Reads -/

/-- A read of PPU register `r` (R270, R273, R275, R278). Registers 0, 1, 3, 5, 6 are write-only. -/
def ppuRegRead (r : Nat) (s : State) : Except Refusal (Byte × State) :=
  match r with
  | 2 => .ok (s.ppu.status s.params.openBus, s.setPpu s.ppu.afterStatusRead)
  | 4 => .ok (s.ppu.readOamData, s)
  | 7 =>
    if s.ppu.rendering then .error .ppuDataWhileRendering
    else .ok ((s.ppu.readData s.cart).1, s.setPpu (s.ppu.readData s.cart).2)
  | _ => .ok (s.params.openBus, s)

/-- A read of $4000 to $4017 (R63, R291, R293, R298). -/
def ioRead (a : Word) (s : State) : Byte × State :=
  if a = 0x4015#16 then (s.apu.status, s.setApu s.apu.afterStatusRead)
  else if a = 0x4016#16 then (s.pads.read0.1, s.setPads s.pads.read0.2)
  else if a = 0x4017#16 then (s.pads.read1.1, s.setPads s.pads.read1.2)
  else (s.params.openBus, s)

/-- A read of $4018 to $FFFF (R64). -/
def cartRead (a : Word) (s : State) : Byte × State :=
  ((s.cart.cpuRead s.params.openBus a).1, s.setCart (s.cart.cpuRead s.params.openBus a).2)

/-- `MemRead(a, 1)`: one read through the bus decoder, with the owner's side effect (R60, R61). -/
def memRead (a : Word) (s : State) : Except Refusal (Byte × State) :=
  if a.toNat < 0x2000 then .ok (s.ram.read (a.toNat % 0x800), s)
  else if a.toNat < 0x4000 then ppuRegRead (a.toNat % 8) s
  else if a.toNat < 0x4018 then .ok (ioRead a s)
  else .ok (cartRead a s)

/-- `MemReadZP16(p)` (00_scope.md R11): page zero is RAM (R61), so the two reads have no side effect;
the high byte comes from page zero even when `p` is $FF. -/
def zpRead16 (p : Byte) (s : State) : Word :=
  word (s.ram.read (p + 1#8).toNat) (s.ram.read p.toNat)

/-- The two reads of JMP indirect (R135): the high byte comes from the page of the low byte. -/
def readPointer (ptr : Word) (s : State) : Except Refusal (Word × State) :=
  match memRead ptr s with
  | .error r => .error r
  | .ok (l, s1) =>
    match memRead (word (hi8 ptr) (lo8 ptr + 1#8)) s1 with
    | .error r => .error r
    | .ok (h, s2) => .ok (word h l, s2)

/-! ### Writes -/

/-- A write of PPU register `r` (R270 to R278). Register 2 is read-only. -/
def ppuRegWrite (r : Nat) (v : Byte) (s : State) : Except Refusal State :=
  match r with
  | 0 => .ok (s.setPpu (s.ppu.writeCtrl v))
  | 1 => .ok (s.setPpu (s.ppu.writeMask v))
  | 3 => .ok (s.setPpu (s.ppu.writeOamAddr v))
  | 4 => .ok (s.setPpu (s.ppu.writeOamData v))
  | 5 => .ok (s.setPpu (s.ppu.writeScroll v))
  | 6 => .ok (s.setPpu (s.ppu.writeAddr v))
  | 7 =>
    if s.ppu.rendering then .error .ppuDataWhileRendering
    else .ok ((s.setPpu (s.ppu.writeData s.cart v).1).setCart (s.ppu.writeData s.cart v).2)
  | _ => .ok s

/-- Byte `i` of an OAM DMA from page `page` (R296): an ordinary bus read, then one OAM cell. -/
def dmaByte (page i : Byte) (s : State) : Except Refusal State :=
  match memRead (word page i) s with
  | .error r => .error r
  | .ok (b, s1) =>
    .ok (s1.setPpu { s1.ppu with oam := s1.ppu.oam.write (s1.ppu.oamaddr + i).toNat b })

/-- The first `k` bytes of an OAM DMA, in ascending order (R296). -/
def dmaCopy (page : Byte) : Nat → State → Except Refusal State
  | 0, s => .ok s
  | k + 1, s =>
    match dmaCopy page k s with
    | .error r => .error r
    | .ok s1 => dmaByte page (BitVec.ofNat 8 k) s1

/-- A write of $4014 (R296): 256 bytes, then the stall of 513 or 514 cycles. -/
def oamDma (page : Byte) (s : State) : Except Refusal State :=
  match dmaCopy page 256 s with
  | .error r => .error r
  | .ok s1 => .ok (s1.setDmaExtra (513 + s1.cyc % 2))

/-- A write of $4000 to $4017 (R63, R290, R291, R293, R296, R297). -/
def ioWrite (a : Word) (v : Byte) (s : State) : Except Refusal State :=
  if a = 0x4014#16 then oamDma v s
  else if a = 0x4016#16 then .ok (s.setPads (s.pads.writeStrobe v))
  else if a = 0x4017#16 then .ok (s.setApu (s.apu.writeFrameCounter v))
  else .ok s

/-- `MemWrite(a, 1, v)`: one write through the bus decoder (R60, R61, R64). -/
def memWrite (a : Word) (v : Byte) (s : State) : Except Refusal State :=
  if a.toNat < 0x2000 then .ok (s.setRam (s.ram.write (a.toNat % 0x800) v))
  else if a.toNat < 0x4000 then ppuRegWrite (a.toNat % 8) v s
  else if a.toNat < 0x4018 then ioWrite a v s
  else .ok (s.setCart (s.cart.cpuWrite a v))

/-! ### The stack: page one, which is RAM (R61, R66) -/

/-- The RAM cell `$0100 + S` of the stack page. -/
def stackCell (sp : Byte) : Nat := 0x100 + sp.toNat

/-- `Push8(v)` (R133). -/
def push8 (v : Byte) (s : State) : State :=
  (s.setRam (s.ram.write (stackCell s.sp) v)).setSp (s.sp - 1#8)

/-- `Push16(w)`: high byte first (R133). -/
def push16 (w : Word) (s : State) : State := push8 (lo8 w) (push8 (hi8 w) s)

/-- `Pull8()` (R134). -/
def pull8 (s : State) : Byte × State :=
  (s.ram.read (stackCell (s.sp + 1#8)), s.setSp (s.sp + 1#8))

/-- `Pull16()`: low byte first (R134). -/
def pull16 (s : State) : Word × State :=
  let l := pull8 s
  let h := pull8 l.2
  (word h.1 l.1, h.2)

/-! ### Interrupts -/

/-- The level `irq_pending` (10_state.md R28, 60_exceptions.md R253). After a reset it is 0 on mapper 0;
with a cartridge of another mapper number R38 says 0 and R28 says the level of the cartridge, and the model
keeps the level. DESIGN CHOICE (log 18), safe. -/
def State.irqPending (s : State) : Bool := s.apu.frameIrq || s.cart.irq

/-- The three kinds of interrupt entry (00_scope.md R13, R256). -/
inductive InterruptKind where
  | nmi
  | irq
  | brk
  deriving DecidableEq, Repr

/-- The vector of a kind (R65, R256, R257). -/
def InterruptKind.vector : InterruptKind → Word
  | .nmi => 0xFFFA#16
  | .irq => 0xFFFE#16
  | .brk => 0xFFFE#16

/-- The break marker of a kind (R27, R256). -/
def InterruptKind.marker : InterruptKind → Bool
  | .nmi => false
  | .irq => false
  | .brk => true

/-- The return address a kind pushes, from the `PC` of the boundary (R232, R256). -/
def InterruptKind.returnAddress (k : InterruptKind) (pc : Word) : Word :=
  match k with
  | .nmi => pc
  | .irq => pc
  | .brk => pc + 2#16

/-- `MemRead(vec, 2)` of a vector, low byte first; the vectors are in the cartridge window (R65). -/
def readVector (vec : Word) (s : State) : Word × State :=
  let l := cartRead vec s
  let h := cartRead (vec + 1#16) l.2
  (word h.1 l.1, h.2)

/-- `Interrupt(kind)` (R256): push the return address and the status image, set `P.I`, load `PC` from
the vector. This is the one operation by which NMI, IRQ and BRK are taken. -/
def interrupt (k : InterruptKind) (s : State) : State :=
  let s1 := push8 (s.p.pack k.marker) (push16 (k.returnAddress s.pc) s)
  let s2 := s1.setP { s1.p with i := true }
  let v := readVector k.vector s2
  v.2.setPc v.1

/-- The return from an interrupt (R233, R258): the flags from the pulled image, then `PC`. -/
def returnFromInterrupt (s : State) : State :=
  let b := pull8 s
  let w := pull16 (b.2.setP (Flags.unpack b.1))
  w.2.setPc w.1

/-! ### Cost -/

/-- Charge `n` CPU cycles and the DMA stall to the current boundary action (R111, R250, R350): the
action takes effect on the first of its cycles and `wait` counts the others. -/
def charge (n : Nat) (s : State) : State := (s.setWait (n + s.dmaExtra - 1)).setDmaExtra 0

/-- The default end of an instruction: `PC <- (PC + len) & $FFFF`, and its cost (R14). -/
def finish (len n : Nat) (s : State) : State := charge n (s.setPc (s.pc + BitVec.ofNat 16 len))

end Sys2Proof.Machine
end

