-- ==== Sys2Proof/Machine/Operands.lean ====
section
/-! DEFINITION. Every operand form: effective addresses and page crossing (40_addressing_modes.md R120
to R137), base costs by class and mode (70_reset_and_hazards.md R350 to R352), and the shapes that
the instructions are made of. -/

namespace Sys2Proof.Machine

/-! ### Effective addresses -/

/-- The effective address `ea` of a mode (R123 to R130). The registers are only read, and the pointers
of the indirect modes lie in page zero, so nothing changes. -/
def effAddr (m : MemMode) (s : State) : Word :=
  match m with
  | .zp b => zext16 b
  | .zpx b => zext16 (b + s.x)
  | .zpy b => zext16 (b + s.y)
  | .abs w => w
  | .abx w => w + zext16 s.x
  | .aby w => w + zext16 s.y
  | .izx b => zpRead16 (b + s.x) s
  | .izy b => zpRead16 b s + zext16 s.y

/-- The page-cross bit `crossed` (R120, R136). -/
def crossed (m : MemMode) (s : State) : Bool :=
  match m with
  | .zp _ => false
  | .zpx _ => false
  | .zpy _ => false
  | .abs _ => false
  | .abx w => decide (hi8 (w + zext16 s.x) ≠ hi8 w)
  | .aby w => decide (hi8 (w + zext16 s.y) ≠ hi8 w)
  | .izx _ => false
  | .izy b => decide (hi8 (zpRead16 b s + zext16 s.y) ≠ hi8 (zpRead16 b s))

/-- The length of an instruction with this mode (R104). -/
def memLength (m : MemMode) : Nat :=
  match m with
  | .zp _ => 2
  | .zpx _ => 2
  | .zpy _ => 2
  | .abs _ => 3
  | .abx _ => 3
  | .aby _ => 3
  | .izx _ => 2
  | .izy _ => 2

/-- The length of a read instruction (R104). -/
def readLength (o : ReadOperand) : Nat :=
  match o with
  | .imm _ => 2
  | .mem m => memLength m

/-- The length of a read-modify-write instruction (R104). -/
def modLength (o : ModOperand) : Nat :=
  match o with
  | .acc => 1
  | .mem m => memLength m

/-! ### Base costs (R352) -/

/-- The class "read", without the page-cross surcharge. -/
def readCycles (m : MemMode) : Nat :=
  match m with
  | .zp _ => 3
  | .zpx _ => 4
  | .zpy _ => 4
  | .abs _ => 4
  | .abx _ => 4
  | .aby _ => 4
  | .izx _ => 6
  | .izy _ => 5

/-- The class "write". -/
def writeCycles (m : MemMode) : Nat :=
  match m with
  | .zp _ => 3
  | .zpx _ => 4
  | .zpy _ => 4
  | .abs _ => 4
  | .abx _ => 5
  | .aby _ => 5
  | .izx _ => 6
  | .izy _ => 6

/-- The cost of a read instruction in state `s`: the base cost, plus one when the indexed read crosses
a page (R351: the read instructions are exactly those that take the surcharge). -/
def readCost (o : ReadOperand) (s : State) : Nat :=
  match o with
  | .imm _ => 2
  | .mem m => readCycles m + (crossed m s).toNat

/-- The cost of INC and DEC: no surcharge (R351). -/
def incCost (m : IncForm) : Nat :=
  match m with
  | .zp _ => 5
  | .zpx _ => 6
  | .abs _ => 6
  | .abx _ => 7

/-- The cost of a shift or rotate: no surcharge (R351). -/
def shiftCost (m : ShiftForm) : Nat :=
  match m with
  | .acc => 2
  | .zp _ => 5
  | .zpx _ => 6
  | .abs _ => 6
  | .abx _ => 7

/-! ### Operand access (R137) -/

/-- `LoadOperand()` of a read instruction. -/
def loadOperand (o : ReadOperand) (s : State) : Except Refusal (Byte × State) :=
  match o with
  | .imm b => .ok (b, s)
  | .mem m => memRead (effAddr m s) s

/-- `LoadOperand()` of a read-modify-write instruction. -/
def loadTarget (o : ModOperand) (s : State) : Except Refusal (Byte × State) :=
  match o with
  | .acc => .ok (s.a, s)
  | .mem m => memRead (effAddr m s) s

/-- `StoreResult(v)`: to `A`, or at the effective address that the state `s0` before the instruction's
own accesses gives. -/
def storeResult (o : ModOperand) (s0 : State) (v : Byte) (s : State) : Except Refusal State :=
  match o with
  | .acc => .ok (s.setA v)
  | .mem m => memWrite (effAddr m s0) v s

/-! ### The shapes of the instructions -/

/-- An instruction that loads its operand and applies `f` to it and the state after the read. -/
def readInstr (o : ReadOperand) (f : Byte → State → State) (s : State) :
    Host.Outcome State Fault Refusal :=
  match loadOperand o s with
  | .error r => .refused r
  | .ok (m, s1) => .next (finish (readLength o) (readCost o s) (f m s1))

/-- An instruction that stores `v` and writes no flag (R143: no read of `ea`). -/
def storeInstr (m : MemMode) (v : Byte) (s : State) : Host.Outcome State Fault Refusal :=
  match memWrite (effAddr m s) v s with
  | .error r => .refused r
  | .ok s1 => .next (finish (memLength m) (writeCycles m) s1)

/-- A read-modify-write instruction of cost `n`: one read, one write of the result, then the flags. -/
def modifyInstr (o : ModOperand) (n : Nat) (f : Byte → Flags → Byte × Flags) (s : State) :
    Host.Outcome State Fault Refusal :=
  match loadTarget o s with
  | .error r => .refused r
  | .ok (m, s1) =>
    match storeResult o s (f m s1.p).1 s1 with
    | .error r => .refused r
    | .ok s2 => .next (finish (modLength o) n (s2.setP (f m s1.p).2))

/-- A register-only instruction: one byte, two cycles (R352). -/
def registerInstr (f : State → State) (s : State) : Host.Outcome State Fault Refusal :=
  .next (finish 1 2 (f s))

/-- `target` of a branch (R132, R203): the offset counts from the next instruction, modulo 65536. -/
def branchTarget (pc : Word) (off : Byte) : Word := pc + 2#16 + sext16 off

/-- `extra` of a taken branch (R203): one cycle, and one more when the target is in another page than
the next instruction. -/
def branchExtra (pc : Word) (off : Byte) : Nat :=
  1 + (decide (hi8 (branchTarget pc off) ≠ hi8 (pc + 2#16))).toNat

/-- `Branch(cond)` (R203). -/
def branchInstr (cond : Bool) (off : Byte) (s : State) : Host.Outcome State Fault Refusal :=
  if cond then .next (charge (2 + branchExtra s.pc off) (s.setPc (branchTarget s.pc off)))
  else .next (charge 2 (s.setPc (s.pc + 2#16)))

/-! ### The forms of each group as operands -/

/-- The operand of an eight-mode form. -/
def aluOperand (m : AluForm) : ReadOperand :=
  match m with
  | .imm b => .imm b
  | .zp b => .mem (.zp b)
  | .zpx b => .mem (.zpx b)
  | .abs w => .mem (.abs w)
  | .abx w => .mem (.abx w)
  | .aby w => .mem (.aby w)
  | .izx b => .mem (.izx b)
  | .izy b => .mem (.izy b)

/-- The mode of an STA form. -/
def staMode (m : StaForm) : MemMode :=
  match m with
  | .zp b => .zp b
  | .zpx b => .zpx b
  | .abs w => .abs w
  | .abx w => .abx w
  | .aby w => .aby w
  | .izx b => .izx b
  | .izy b => .izy b

/-- The operand of an LDX form: the index register is Y (R141). -/
def ldxOperand (m : LdxForm) : ReadOperand :=
  match m with
  | .imm b => .imm b
  | .zp b => .mem (.zp b)
  | .zpy b => .mem (.zpy b)
  | .abs w => .mem (.abs w)
  | .aby w => .mem (.aby w)

/-- The operand of an LDY form: the index register is X (R142). -/
def ldyOperand (m : LdyForm) : ReadOperand :=
  match m with
  | .imm b => .imm b
  | .zp b => .mem (.zp b)
  | .zpx b => .mem (.zpx b)
  | .abs w => .mem (.abs w)
  | .abx w => .mem (.abx w)

/-- The mode of an STX form. -/
def stxMode (m : StxForm) : MemMode :=
  match m with
  | .zp b => .zp b
  | .zpy b => .zpy b
  | .abs w => .abs w

/-- The mode of an STY form. -/
def styMode (m : StyForm) : MemMode :=
  match m with
  | .zp b => .zp b
  | .zpx b => .zpx b
  | .abs w => .abs w

/-- The operand of a CPX or CPY form. -/
def cpOperand (m : CpForm) : ReadOperand :=
  match m with
  | .imm b => .imm b
  | .zp b => .mem (.zp b)
  | .abs w => .mem (.abs w)

/-- The operand of a BIT form. -/
def bitOperand (m : BitForm) : ReadOperand :=
  match m with
  | .zp b => .mem (.zp b)
  | .abs w => .mem (.abs w)

/-- The operand of an INC or DEC form. -/
def incOperand (m : IncForm) : ModOperand :=
  match m with
  | .zp b => .mem (.zp b)
  | .zpx b => .mem (.zpx b)
  | .abs w => .mem (.abs w)
  | .abx w => .mem (.abx w)

/-- The operand of a shift or rotate form. -/
def shiftOperand (m : ShiftForm) : ModOperand :=
  match m with
  | .acc => .acc
  | .zp b => .mem (.zp b)
  | .zpx b => .mem (.zpx b)
  | .abs w => .mem (.abs w)
  | .abx w => .mem (.abx w)

end Sys2Proof.Machine
end

