-- ==== Sys2Proof/Machine/LoadStore.lean ====
section
/-! DEFINITION. Load, store and transfer (41_load_store_transfer.md R140 to R151). -/

namespace Sys2Proof.Machine

/-- `A <- v; SetZN(A)` on the state `s`. -/
def loadA (v : Byte) (s : State) : State := (s.setA v).setP (s.p.setZN v)

/-- `X <- v; SetZN(X)`. -/
def loadX (v : Byte) (s : State) : State := (s.setX v).setP (s.p.setZN v)

/-- `Y <- v; SetZN(Y)`. -/
def loadY (v : Byte) (s : State) : State := (s.setY v).setP (s.p.setZN v)

/-- LDA (R140). -/
def execLda (m : AluForm) (s : State) : Host.Outcome State Fault Refusal :=
  readInstr (aluOperand m) loadA s

/-- LDX (R141). -/
def execLdx (m : LdxForm) (s : State) : Host.Outcome State Fault Refusal :=
  readInstr (ldxOperand m) loadX s

/-- LDY (R142). -/
def execLdy (m : LdyForm) (s : State) : Host.Outcome State Fault Refusal :=
  readInstr (ldyOperand m) loadY s

/-- STA (R143). -/
def execSta (m : StaForm) (s : State) : Host.Outcome State Fault Refusal :=
  storeInstr (staMode m) s.a s

/-- STX (R144). -/
def execStx (m : StxForm) (s : State) : Host.Outcome State Fault Refusal :=
  storeInstr (stxMode m) s.x s

/-- STY (R145). -/
def execSty (m : StyForm) (s : State) : Host.Outcome State Fault Refusal :=
  storeInstr (styMode m) s.y s

/-- TAX (R146). -/
def execTax (s : State) : Host.Outcome State Fault Refusal :=
  registerInstr (fun t => loadX t.a t) s

/-- TAY (R147). -/
def execTay (s : State) : Host.Outcome State Fault Refusal :=
  registerInstr (fun t => loadY t.a t) s

/-- TXA (R148). -/
def execTxa (s : State) : Host.Outcome State Fault Refusal :=
  registerInstr (fun t => loadA t.x t) s

/-- TYA (R149). -/
def execTya (s : State) : Host.Outcome State Fault Refusal :=
  registerInstr (fun t => loadA t.y t) s

/-- TSX (R150). -/
def execTsx (s : State) : Host.Outcome State Fault Refusal :=
  registerInstr (fun t => loadX t.sp t) s

/-- TXS (R151): no flag is written. -/
def execTxs (s : State) : Host.Outcome State Fault Refusal :=
  registerInstr (fun t => t.setSp t.x) s

end Sys2Proof.Machine
end

