-- ==== Sys2Proof/Machine/Arith.lean ====
section
/-! DEFINITION. Arithmetic, logic, compare and bit test (42_arithmetic_logic.md R160 to R169).
The decimal flag is not read: the arithmetic is always binary (R169). -/

namespace Sys2Proof.Machine

/-- `A <- sum & $FF` with the flags of the adder: ADC of the operand `m` (R160). -/
def addToA (m : Byte) (s : State) : State :=
  (s.setA (adderResult s.a m s.p.c)).setP (s.p.adder s.a m)

/-- ADC (R160). -/
def execAdc (m : AluForm) (s : State) : Host.Outcome State Fault Refusal :=
  readInstr (aluOperand m) addToA s

/-- SBC (R161): ADC of the one's complement of the operand. -/
def execSbc (m : AluForm) (s : State) : Host.Outcome State Fault Refusal :=
  readInstr (aluOperand m) (fun v t => addToA (v ^^^ 0xFF#8) t) s

/-- AND (R162). -/
def execAnd (m : AluForm) (s : State) : Host.Outcome State Fault Refusal :=
  readInstr (aluOperand m) (fun v t => loadA (t.a &&& v) t) s

/-- ORA (R163). -/
def execOra (m : AluForm) (s : State) : Host.Outcome State Fault Refusal :=
  readInstr (aluOperand m) (fun v t => loadA (t.a ||| v) t) s

/-- EOR (R164). -/
def execEor (m : AluForm) (s : State) : Host.Outcome State Fault Refusal :=
  readInstr (aluOperand m) (fun v t => loadA (t.a ^^^ v) t) s

/-- CMP (R165). -/
def execCmp (m : AluForm) (s : State) : Host.Outcome State Fault Refusal :=
  readInstr (aluOperand m) (fun v t => t.setP (t.p.compare t.a v)) s

/-- CPX (R166). -/
def execCpx (m : CpForm) (s : State) : Host.Outcome State Fault Refusal :=
  readInstr (cpOperand m) (fun v t => t.setP (t.p.compare t.x v)) s

/-- CPY (R167). -/
def execCpy (m : CpForm) (s : State) : Host.Outcome State Fault Refusal :=
  readInstr (cpOperand m) (fun v t => t.setP (t.p.compare t.y v)) s

/-- BIT (R168). -/
def execBit (m : BitForm) (s : State) : Host.Outcome State Fault Refusal :=
  readInstr (bitOperand m) (fun v t => t.setP (t.p.bitTest t.a v)) s

end Sys2Proof.Machine
end

