-- ==== Sys2Proof/Machine/Control.lean ====
section
/-! DEFINITION. Jumps, subroutines and branches (44_control_flow.md R200 to R211). -/

namespace Sys2Proof.Machine

/-- JMP (R200): absolute, 3 cycles; indirect through the pointer of R135, 5 cycles. -/
def execJmp (m : JmpForm) (s : State) : Host.Outcome State Fault Refusal :=
  match m with
  | .abs w => .next (charge 3 (s.setPc w))
  | .ind ptr =>
    match readPointer ptr s with
    | .error r => .refused r
    | .ok (w, s1) => .next (charge 5 (s1.setPc w))

/-- JSR (R201): pushes the address of its own last byte. -/
def execJsr (w : Word) (s : State) : Host.Outcome State Fault Refusal :=
  .next (charge 6 ((push16 (s.pc + 2#16) s).setPc w))

/-- RTS (R202). -/
def execRts (s : State) : Host.Outcome State Fault Refusal :=
  .next (charge 6 ((pull16 s).2.setPc ((pull16 s).1 + 1#16)))

/-- BCC (R204). -/
def execBcc (off : Byte) (s : State) : Host.Outcome State Fault Refusal :=
  branchInstr (!s.p.c) off s

/-- BCS (R205). -/
def execBcs (off : Byte) (s : State) : Host.Outcome State Fault Refusal :=
  branchInstr s.p.c off s

/-- BEQ (R206). -/
def execBeq (off : Byte) (s : State) : Host.Outcome State Fault Refusal :=
  branchInstr s.p.z off s

/-- BNE (R207). -/
def execBne (off : Byte) (s : State) : Host.Outcome State Fault Refusal :=
  branchInstr (!s.p.z) off s

/-- BMI (R208). -/
def execBmi (off : Byte) (s : State) : Host.Outcome State Fault Refusal :=
  branchInstr s.p.n off s

/-- BPL (R209). -/
def execBpl (off : Byte) (s : State) : Host.Outcome State Fault Refusal :=
  branchInstr (!s.p.n) off s

/-- BVC (R210). -/
def execBvc (off : Byte) (s : State) : Host.Outcome State Fault Refusal :=
  branchInstr (!s.p.v) off s

/-- BVS (R211). -/
def execBvs (off : Byte) (s : State) : Host.Outcome State Fault Refusal :=
  branchInstr s.p.v off s

end Sys2Proof.Machine
end

