-- ==== Sys2Proof/Machine/IncShift.lean ====
section
/-! DEFINITION. Increment, decrement, shift and rotate (43_inc_dec_shift.md R180 to R189). -/

namespace Sys2Proof.Machine

/-- INC (R180). -/
def execInc (m : IncForm) (s : State) : Host.Outcome State Fault Refusal :=
  modifyInstr (incOperand m) (incCost m) incStep s

/-- INX (R181). -/
def execInx (s : State) : Host.Outcome State Fault Refusal :=
  registerInstr (fun t => loadX (t.x + 1#8) t) s

/-- INY (R182). -/
def execIny (s : State) : Host.Outcome State Fault Refusal :=
  registerInstr (fun t => loadY (t.y + 1#8) t) s

/-- DEC (R183). -/
def execDec (m : IncForm) (s : State) : Host.Outcome State Fault Refusal :=
  modifyInstr (incOperand m) (incCost m) decStep s

/-- DEX (R184). -/
def execDex (s : State) : Host.Outcome State Fault Refusal :=
  registerInstr (fun t => loadX (t.x - 1#8) t) s

/-- DEY (R185). -/
def execDey (s : State) : Host.Outcome State Fault Refusal :=
  registerInstr (fun t => loadY (t.y - 1#8) t) s

/-- ASL (R186). -/
def execAsl (m : ShiftForm) (s : State) : Host.Outcome State Fault Refusal :=
  modifyInstr (shiftOperand m) (shiftCost m) aslStep s

/-- LSR (R187). -/
def execLsr (m : ShiftForm) (s : State) : Host.Outcome State Fault Refusal :=
  modifyInstr (shiftOperand m) (shiftCost m) lsrStep s

/-- ROL (R188). -/
def execRol (m : ShiftForm) (s : State) : Host.Outcome State Fault Refusal :=
  modifyInstr (shiftOperand m) (shiftCost m) rolStep s

/-- ROR (R189). -/
def execRor (m : ShiftForm) (s : State) : Host.Outcome State Fault Refusal :=
  modifyInstr (shiftOperand m) (shiftCost m) rorStep s

end Sys2Proof.Machine
end

