-- ==== Sys2Proof/Machine/System.lean ====
section
/-! DEFINITION. Stack, flag and system instructions and the undefined opcodes
(45_stack_flags_system.md R220 to R233, 46_undefined_opcodes.md R240). -/

namespace Sys2Proof.Machine

/-- PHA (R220). -/
def execPha (s : State) : Host.Outcome State Fault Refusal :=
  .next (finish 1 3 (push8 s.a s))

/-- PHP (R221): bits 5 and 4 of the pushed byte are 1. -/
def execPhp (s : State) : Host.Outcome State Fault Refusal :=
  .next (finish 1 3 (push8 (s.p.pack true) s))

/-- PLA (R222). -/
def execPla (s : State) : Host.Outcome State Fault Refusal :=
  .next (finish 1 4 (loadA (pull8 s).1 (pull8 s).2))

/-- PLP (R223): bits 5 and 4 of the pulled byte are ignored. -/
def execPlp (s : State) : Host.Outcome State Fault Refusal :=
  .next (finish 1 4 ((pull8 s).2.setP (Flags.unpack (pull8 s).1)))

/-- CLC (R224). -/
def execClc (s : State) : Host.Outcome State Fault Refusal :=
  registerInstr (fun t => t.setP { t.p with c := false }) s

/-- SEC (R225). -/
def execSec (s : State) : Host.Outcome State Fault Refusal :=
  registerInstr (fun t => t.setP { t.p with c := true }) s

/-- CLI (R226). -/
def execCli (s : State) : Host.Outcome State Fault Refusal :=
  registerInstr (fun t => t.setP { t.p with i := false }) s

/-- SEI (R227). -/
def execSei (s : State) : Host.Outcome State Fault Refusal :=
  registerInstr (fun t => t.setP { t.p with i := true }) s

/-- CLV (R228). -/
def execClv (s : State) : Host.Outcome State Fault Refusal :=
  registerInstr (fun t => t.setP { t.p with v := false }) s

/-- CLD (R229). -/
def execCld (s : State) : Host.Outcome State Fault Refusal :=
  registerInstr (fun t => t.setP { t.p with d := false }) s

/-- SED (R230). -/
def execSed (s : State) : Host.Outcome State Fault Refusal :=
  registerInstr (fun t => t.setP { t.p with d := true }) s

/-- NOP (R231). -/
def execNop (s : State) : Host.Outcome State Fault Refusal :=
  registerInstr (fun t => t) s

/-- BRK (R232): takes the interrupt entry of kind BRK. -/
def execBrk (s : State) : Host.Outcome State Fault Refusal :=
  .next (charge 7 (interrupt .brk s))

/-- RTI (R233). -/
def execRti (s : State) : Host.Outcome State Fault Refusal :=
  .next (charge 6 (returnFromInterrupt s))

/-- UND, an undefined opcode (R240): the same no-operation for every value. -/
def execUnd (_op : Byte) (s : State) : Host.Outcome State Fault Refusal :=
  .next (finish s.params.undefLen s.params.undefCycles s)

end Sys2Proof.Machine
end

