-- ==== Sys2Proof/Machine/Dispatch.lean ====
section
/-! DEFINITION. The one dispatch from an instruction to its meaning. -/

namespace Sys2Proof.Machine

def exec (i : Instr) (s : State) : Host.Outcome State Fault Refusal :=
  match i with
  | .lda m => Sys2Proof.Machine.execLda m s
  | .ldx m => Sys2Proof.Machine.execLdx m s
  | .ldy m => Sys2Proof.Machine.execLdy m s
  | .sta m => Sys2Proof.Machine.execSta m s
  | .stx m => Sys2Proof.Machine.execStx m s
  | .sty m => Sys2Proof.Machine.execSty m s
  | .tax => Sys2Proof.Machine.execTax s
  | .tay => Sys2Proof.Machine.execTay s
  | .txa => Sys2Proof.Machine.execTxa s
  | .tya => Sys2Proof.Machine.execTya s
  | .tsx => Sys2Proof.Machine.execTsx s
  | .txs => Sys2Proof.Machine.execTxs s
  | .adc m => Sys2Proof.Machine.execAdc m s
  | .sbc m => Sys2Proof.Machine.execSbc m s
  | .and m => Sys2Proof.Machine.execAnd m s
  | .ora m => Sys2Proof.Machine.execOra m s
  | .eor m => Sys2Proof.Machine.execEor m s
  | .cmp m => Sys2Proof.Machine.execCmp m s
  | .cpx m => Sys2Proof.Machine.execCpx m s
  | .cpy m => Sys2Proof.Machine.execCpy m s
  | .bit m => Sys2Proof.Machine.execBit m s
  | .inc m => Sys2Proof.Machine.execInc m s
  | .inx => Sys2Proof.Machine.execInx s
  | .iny => Sys2Proof.Machine.execIny s
  | .dec m => Sys2Proof.Machine.execDec m s
  | .dex => Sys2Proof.Machine.execDex s
  | .dey => Sys2Proof.Machine.execDey s
  | .asl m => Sys2Proof.Machine.execAsl m s
  | .lsr m => Sys2Proof.Machine.execLsr m s
  | .rol m => Sys2Proof.Machine.execRol m s
  | .ror m => Sys2Proof.Machine.execRor m s
  | .jmp m => Sys2Proof.Machine.execJmp m s
  | .jsr w => Sys2Proof.Machine.execJsr w s
  | .rts => Sys2Proof.Machine.execRts s
  | .bcc off => Sys2Proof.Machine.execBcc off s
  | .bcs off => Sys2Proof.Machine.execBcs off s
  | .beq off => Sys2Proof.Machine.execBeq off s
  | .bne off => Sys2Proof.Machine.execBne off s
  | .bmi off => Sys2Proof.Machine.execBmi off s
  | .bpl off => Sys2Proof.Machine.execBpl off s
  | .bvc off => Sys2Proof.Machine.execBvc off s
  | .bvs off => Sys2Proof.Machine.execBvs off s
  | .pha => Sys2Proof.Machine.execPha s
  | .php => Sys2Proof.Machine.execPhp s
  | .pla => Sys2Proof.Machine.execPla s
  | .plp => Sys2Proof.Machine.execPlp s
  | .clc => Sys2Proof.Machine.execClc s
  | .sec => Sys2Proof.Machine.execSec s
  | .cli => Sys2Proof.Machine.execCli s
  | .sei => Sys2Proof.Machine.execSei s
  | .clv => Sys2Proof.Machine.execClv s
  | .cld => Sys2Proof.Machine.execCld s
  | .sed => Sys2Proof.Machine.execSed s
  | .nop => Sys2Proof.Machine.execNop s
  | .brk => Sys2Proof.Machine.execBrk s
  | .rti => Sys2Proof.Machine.execRti s
  | .und op => Sys2Proof.Machine.execUnd op s

end Sys2Proof.Machine
end

