-- ==== Sys2Proof/Machine/Tick.lean ====
section
/-! DEFINITION. The PPU's raster engine: one dot (60_exceptions.md R280 to R285). -/

namespace Sys2Proof.Machine

/-- `VBlankEntry()` (R282): the flag, and the NMI latch if bit 7 of `ppu.ctrl` enables it. -/
def vblankEntry (s : State) : State :=
  (s.setPpu { s.ppu with vblank := true }).setNmiPending (s.nmiPending || s.ppu.ctrl.getLsbD 7)

/-- `PreRenderClear()` (R283). -/
def preRenderClear (s : State) : State :=
  s.setPpu { s.ppu with vblank := false, spr0 := false, sprovf := false }

/-- The frame buffer has 256 by 240 pixels (R33). -/
def frameSize : Nat := 61440

/-- The frame buffer after the pixel writes of one dot; there is no pixel outside it. -/
def drawPixels (fb : Cells 24) : List (Nat × Pixel) → Cells 24
  | [] => fb
  | (i, c) :: rest => drawPixels (if i < frameSize then fb.write i c else fb) rest

/-- `Render` at one dot, within the frame R285 gives it: it draws pixels, may set the two sprite flags
on scanlines 0 to 239, and gives `ppu.v` and `ppu.oamaddr`. -/
def applyRender (r : RenderOut) (s : State) : State :=
  let visible := decide (s.ppu.scanline ≤ 239)
  (s.setPpu
    { s.ppu with
      spr0 := s.ppu.spr0 || (visible && r.spr0)
      sprovf := s.ppu.sprovf || (visible && r.sprovf)
      v := r.v
      oamaddr := r.oamaddr }).setFrameBuf (drawPixels s.frameBuf r.pixels)

/-- The scanline notification of R284, at dot 260. -/
def notifyAtDot (s : State) : State :=
  if s.ppu.dot = 260 then s.setCart s.cart.notifyScanline else s

/-- `RenderDot()` (R284, R285). -/
def renderDot (s : State) : State :=
  let s1 := notifyAtDot s
  applyRender (Config.render s1.ppu
    { chr := s1.cart.chr, regs := s1.cart.regs, mirroring := s1.cart.mirror }) s1

/-- The last dot of a scanline (R281): scanline 261 of an odd frame has no dot 340. -/
def lastDot (scanline : Nat) (odd : Bool) : Nat := if scanline = 261 ∧ odd = true then 339 else 340

/-- The advance of the raster counters, the second half of `PpuTick()` (R281). -/
def advanceDot (s : State) : State :=
  if s.ppu.dot = lastDot s.ppu.scanline s.ppu.odd then
    if s.ppu.scanline = 261 then
      (s.setPpu { s.ppu with dot := 0, scanline := 0, odd := !s.ppu.odd }).setFrameComplete true
    else s.setPpu { s.ppu with dot := 0, scanline := s.ppu.scanline + 1 }
  else s.setPpu { s.ppu with dot := s.ppu.dot + 1 }

/-- The vertical-blank event of the current position (R281). -/
def vblankEvent (s : State) : State :=
  if s.ppu.scanline = 241 ∧ s.ppu.dot = 1 then vblankEntry s else s

/-- The pre-render event of the current position (R281). -/
def preRenderEvent (s : State) : State :=
  if s.ppu.scanline = 261 ∧ s.ppu.dot = 1 then preRenderClear s else s

/-- The rendering of the current position (R281). -/
def renderEvent (s : State) : State := if s.ppu.rendering then renderDot s else s

/-- `PpuTick()`, one dot: the events of the current position, then the advance (R281). -/
def ppuTick (s : State) : State := advanceDot (renderEvent (preRenderEvent (vblankEvent s)))

/-- The APU's tick on the whole state (R292). -/
def apuTick (s : State) : State := s.setApu s.apu.tick

/-- The device ticks of one CPU cycle: three dots and one APU tick (R300). -/
def deviceTicks (s : State) : State := apuTick (ppuTick (ppuTick (ppuTick s)))

end Sys2Proof.Machine
end

