-- ==== Sys2Proof/Machine/Cycle.lean ====
section
/-! DEFINITION. The CPU's sequencing and the console's clock: fetch and `ExecuteOne` (30_encoding.md
R111), `CpuCycle` (60_exceptions.md R250, R251, R255) and `ClockCycle` (R300). -/

namespace Sys2Proof.Machine

/-- The instruction at `PC`, fetched through the bus: the opcode, then the operand bytes its format
has, in order (R103, R111). -/
def fetchInstr (s : State) : Except Refusal (Instr × State) :=
  match memRead s.pc s with
  | .error r => .error r
  | .ok (op, s1) =>
    match opcodeRow op with
    | .f1 i => .ok (i, s1)
    | .f2 i =>
      match memRead (s.pc + 1#16) s1 with
      | .error r => .error r
      | .ok (b1, s2) => .ok (i b1, s2)
    | .f3 i =>
      match memRead (s.pc + 1#16) s1 with
      | .error r => .error r
      | .ok (b1, s2) =>
        match memRead (s.pc + 2#16) s2 with
        | .error r => .error r
        | .ok (b2, s3) => .ok (i (word b2 b1), s3)

/-- `ExecuteOne()` (R111). The meaning charges its own cost to `wait`. -/
def executeOne (s : State) : Host.Outcome State Fault Refusal :=
  match fetchInstr s with
  | .error r => .refused r
  | .ok (i, s1) => exec i s1

/-- The service of an interrupt line at a boundary: the entry costs 7 cycles (R250, R256). -/
def serviceInterrupt (k : InterruptKind) (s : State) : State := (interrupt k s).setWait 6

/-- The boundary action (R250, R255): NMI before IRQ before one instruction. -/
def boundaryAction (s : State) : Host.Outcome State Fault Refusal :=
  if s.nmiPending then .next (serviceInterrupt .nmi (s.setNmiPending false))
  else if s.irqPending && !s.p.i then .next (serviceInterrupt .irq s)
  else executeOne s

/-- `CpuCycle()` (R250). -/
def cpuCycle (s : State) : Host.Outcome State Fault Refusal :=
  if 0 < s.wait then .next ((s.setCyc (s.cyc + 1)).setWait (s.wait - 1))
  else boundaryAction (s.setCyc (s.cyc + 1))

/-- `ClockCycle()` (R300): the CPU's cycle, then the device ticks. -/
def clockCycle (s : State) : Host.Outcome State Fault Refusal :=
  match cpuCycle s with
  | .next t => .next (deviceTicks t)
  | .fault f => .fault f
  | .refused r => .refused r

/-! ### Placing an instruction where the next step fetches -/

/-- The byte at `a` can be placed: `a` is RAM, or PRG-ROM of the no-bank-switch cartridge. -/
def placeable (a : Word) (s : State) : Bool :=
  decide (a.toNat < 0x2000) || (decide (0x8000 ≤ a.toNat) && decide (s.cart.variant = .nrom))

/-- Put a byte where a fetch at the placeable address `a` reads it: the RAM cell, or the PRG byte as a
loaded image would hold it. -/
def placeByte (a : Word) (v : Byte) (s : State) : State :=
  if a.toNat < 0x2000 then s.setRam (s.ram.write (a.toNat % 0x800) v)
  else s.setCart { s.cart with prg := s.cart.prg.write (s.cart.prgOffset a) v }

/-- Make the next step a boundary action that executes an instruction: no cycle is outstanding, no NMI
is latched, an asserted IRQ is masked, and `PC` is where three bytes can be placed. -/
def readyToFetch (s : State) : State :=
  let s1 := (s.setWait 0).setNmiPending false
  let s2 := s1.setP { s1.p with i := s1.p.i || s1.irqPending }
  if placeable s2.pc s2 && placeable (s2.pc + 1#16) s2 && placeable (s2.pc + 2#16) s2 then s2
  else s2.setPc 0x0000#16

/-- The three bytes at `PC`. -/
def placeInstr (b0 b1 b2 : Byte) (s : State) : State :=
  placeByte (s.pc + 2#16) b2 (placeByte (s.pc + 1#16) b1 (placeByte s.pc b0 s))

end Sys2Proof.Machine
end

