-- ==== Sys2Proof/Machine/Step.lean ====
section
/-! DEFINITION. One step of the machine: one CPU cycle of the whole console (60_exceptions.md R300). A
boundary action happens whole on the first cycle of its cost, and the other cycles of the cost are
steps in which only the devices advance (R250; 92_eei_decisions.md D3). -/

namespace Sys2Proof.Machine

/-- One step: `ClockCycle()` (R300). -/
def step (s : State) : Host.Outcome State Fault Refusal := clockCycle s

/-- `s` with the instruction whose bits are `w` where the next step fetches, and nothing in the way of
that fetch (log 2). -/
def State.withFetchWord (s : State) (nbits w : Nat) : State :=
  placeInstr (tableByte nbits w 0) (tableByte nbits w 1) (tableByte nbits w 2) (readyToFetch s)

end Sys2Proof.Machine
end

