-- ==== Sys2Proof/Machine/Console.lean ====
section
/-! DEFINITION. The host interface: reset, one frame, debug memory access, save and load of state
(60_exceptions.md R301 to R303; 70_reset_and_hazards.md R330), and the loading of an iNES image
(20_memory.md R83). None of this is a step: the host acts between frames only (R302). -/

namespace Sys2Proof.Machine

/-- The host's `reset()` (R330): nothing of the old state survives but the parameters and the
cartridge's constants. -/
def hostReset (s : State) : State := State.resetWith s.params s.cart

/-- The host supplies the controller bytes of a frame and clears `frame_complete` (R301). -/
def beginFrame (c0 c1 : Byte) (s : State) : State :=
  (s.setPads { s.pads with pad0 := c0, pad1 := c1 }).setFrameComplete false

/-- `repeat ClockCycle() until frame_complete = 1` (R301), at most `n` times. -/
def runFrame : Nat → State → Host.Outcome State Fault Refusal
  | 0, s => .next s
  | n + 1, s =>
    match step s with
    | .next t => if t.frameComplete then .next t else runFrame n t
    | .fault f => .fault f
    | .refused r => .refused r

/-- No frame takes more than this many CPU cycles: 3 * 29781 dots is more than the 89342 dots of the
longer frame (R280, R354). -/
def frameCycles : Nat := 29781

/-- `StepFrame(c0, c1)` (R301): the frame buffer it returns is `frameBuf` of the state after. -/
def stepFrame (c0 c1 : Byte) (s : State) : Host.Outcome State Fault Refusal :=
  runFrame frameCycles (beginFrame c0 c1 s)

/-- `get_frame_buffer()` (R302): changes nothing. -/
def hostFrameBuffer (s : State) : Cells 24 := s.frameBuf

/-- The stall of a DMA that the host's own access started (R302). -/
def settleDma (s : State) : State := (s.setWait (s.wait + s.dmaExtra)).setDmaExtra 0

/-- `read_memory(address)` (R302): `MemRead` with its side effects, free of cycles. -/
def hostRead (a : Word) (s : State) : Except Refusal (Byte × State) :=
  match memRead a s with
  | .error r => .error r
  | .ok (b, t) => .ok (b, settleDma t)

/-- `write_memory(address, value)` (R302): `MemWrite` with its side effects, free of cycles. -/
def hostWrite (a : Word) (v : Byte) (s : State) : Except Refusal State :=
  match memWrite a v s with
  | .error r => .error r
  | .ok t => .ok (settleDma t)

/-- A saved state (R303): a version, and a copy of the state record unless the blob is truncated. -/
structure SavedState where
  version : Nat
  payload : Option State
  deriving DecidableEq, Repr

/-- The version this model writes. DESIGN CHOICE (log 9): the numbering is opaque, and no claim rests on it. -/
def saveVersion : Nat := 1

/-- StateError of R303, which is one error. DESIGN CHOICE (log 9), unsafe: the model tells its two causes
apart by name. -/
inductive StateError where
  | versionMismatch
  | truncated
  deriving DecidableEq, Repr

/-- `save_state()` (R303). -/
def saveState (s : State) : SavedState := { version := saveVersion, payload := some s }

/-- `load_state(blob)` (R303): restores every state element, or fails and changes nothing. The
parameters and the cartridge's constants are the console's own. DESIGN CHOICE (log 9), unsafe: the version
is looked at first, so a truncated blob of another version is a version mismatch; R303 gives no order. -/
def loadState (b : SavedState) (s : State) : Except StateError State :=
  if b.version = saveVersion then
    match b.payload with
    | none => .error .truncated
    | some t =>
      .ok { t with
        params := s.params
        cart := { s.cart with regs := t.cart.regs, chr := if s.cart.chrRam then t.cart.chr else s.cart.chr } }
  else .error .versionMismatch

/-- Why an image is refused at load (R83). -/
inductive LoadError where
  | formatError
  | unsupportedMapper (mapper : Nat)
  deriving DecidableEq, Repr

/-- The lookup table of the registered variants by iNES mapper number (R80, R82). -/
def variantOf (mapper : Nat) : Option CartVariant := if mapper = 0 then some .nrom else none

/-- The mapper number of a header: high nibble of flags 7, high nibble of flags 6 (R83). -/
def headerMapper (flags6 flags7 : Byte) : Nat := (flags7 &&& 0xF0#8 ||| flags6 >>> 4).toNat

/-- The bytes of the trainer (R83). -/
def trainerSize (flags6 : Byte) : Nat := if flags6.getLsbD 2 then 512 else 0

/-- Whether the body has exactly the declared size (R83). -/
def sizeMatches (np nc flags6 : Byte) (body : List Byte) : Bool :=
  decide (body.length = trainerSize flags6 + np.toNat * 0x4000 + nc.toNat * 0x2000)

/-- The restrictions of variant 0 on the header (R83): one or two PRG banks, at most one CHR bank, no
four-screen mirroring. -/
def nromHeader (np nc flags6 : Byte) : Bool :=
  (decide (np.toNat = 1) || decide (np.toNat = 2)) && decide (nc.toNat ≤ 1) && !flags6.getLsbD 3

/-- The cartridge built from an accepted header and body (R82, R83). -/
def buildCart (variant : CartVariant) (np nc flags6 : Byte) (body : List Byte) : Cart :=
  let banks := body.drop (trainerSize flags6)
  { variant := variant, prgSize := np.toNat * 0x4000,
    prg := Memory.ofBytes (banks.take (np.toNat * 0x4000)), chrRam := decide (nc.toNat = 0),
    chr := Memory.ofBytes (banks.drop (np.toNat * 0x4000)),
    mirroring := if flags6.getLsbD 0 then .vertical else .horizontal, regs := [] }

/-- Loading an iNES image (R83): all or nothing. The magic is looked at first, then the sizes, then
the mapper number, then the restrictions of variant 0 (log 8). -/
def loadImage (image : List Byte) : Except LoadError Cart :=
  match image with
  | m0 :: m1 :: m2 :: m3 :: np :: nc :: f6 :: f7 ::
      _ :: _ :: _ :: _ :: _ :: _ :: _ :: _ :: body =>
    if [m0, m1, m2, m3] = [0x4E#8, 0x45#8, 0x53#8, 0x1A#8] ∧ sizeMatches np nc f6 body then
      match variantOf (headerMapper f6 f7) with
      | none => .error (.unsupportedMapper (headerMapper f6 f7))
      | some v => if nromHeader np nc f6 then .ok (buildCart v np nc f6 body) else .error .formatError
    else .error .formatError
  | _ => .error .formatError

/-- A console with a loaded image, after its first reset (R83, R332). -/
def powerOn (image : List Byte) : Except LoadError State :=
  match loadImage image with
  | .error e => .error e
  | .ok c => .ok (State.resetWith Params.default c)

end Sys2Proof.Machine
end

