-- ==== Sys2Proof/Safety.lean ====
section
/-! DEFINITION. What statements are said in terms of: the invariant of reachable states, the read of
one byte without its side effect, and runs. -/

namespace Sys2Proof.Machine

/-- Raster bounds (60_exceptions.md R280, R281): the position exists on this frame. -/
def Ppu.rasterOk (p : Ppu) : Bool :=
  decide (p.scanline < 262) && decide (p.dot ≤ lastDot p.scanline p.odd)

/-- The PPU's arrays are in canonical form; a palette entry has six bits (20_memory.md R76). -/
def Ppu.wf (p : Ppu) : Bool :=
  Memory.wf 0x800 p.vram && Memory.wf 32 p.pal && p.pal.all (fun c => decide (c.2 &&& 0xC0#8 = 0#8)) &&
    Memory.wf 256 p.oam && p.rasterOk

/-- `apu.fc` is below the period of its mode (60_exceptions.md R292). -/
def Apu.wf (u : Apu) : Bool := decide (u.fc < if u.mode then 37282 else 29830)

/-- Each array in canonical form and of its size, the raster position and the sequencer in range, the
parameters in theirs: what every bus access and every device tick keeps. -/
def State.storageWf (s : State) : Bool :=
  Memory.wf 0x800 s.ram && s.ppu.wf && Cells.wf frameSize s.frameBuf && s.apu.wf && s.cart.wf &&
    s.params.wf

/-- The invariant of every state a run reaches: storage in form, and `dma_extra` 0 between boundary
actions (10_state.md R29). -/
def State.wf (s : State) : Bool := s.storageWf && decide (s.dmaExtra = 0)

/-- The invariant as a proposition. -/
abbrev State.Inv (s : State) : Prop := s.wf = true

/-- The byte a read of `a` returns now, leaving the side effect out; none where the read is refused. -/
def peek (s : State) (a : Word) : Option Byte :=
  match memRead a s with
  | .ok (b, _) => some b
  | .error _ => none

/-- `t` is `s` but for the device records: what a bus read may change. -/
abbrev SameButDevices (s t : State) : Prop :=
  t = { s with ppu := t.ppu, apu := t.apu, pads := t.pads, cart := t.cart }

/-- `t` is `s` but for the RAM, the device records and `dma_extra`: what a bus write may change. -/
abbrev SameButBus (s t : State) : Prop :=
  t = { s with ram := t.ram, ppu := t.ppu, apu := t.apu, pads := t.pads, cart := t.cart,
               dmaExtra := t.dmaExtra }

/-- `t`'s cartridge has the constants of `s`'s: the ROM contents, the sizes, the variant and the header's
mirroring (10_state.md R36). -/
abbrev SameRom (s t : State) : Prop :=
  t.cart = { s.cart with regs := t.cart.regs, chr := t.cart.chr } ∧
    (s.cart.chrRam = false → t.cart.chr = s.cart.chr) ∧ t.params = s.params

/-- A cartridge of the no-bank-switch variant (20_memory.md R82). -/
abbrev State.Nrom (s : State) : Prop := s.cart.variant = .nrom

/-- Addresses a CPU read of which has no side effect on the no-bank-switch cartridge: RAM and the
cartridge window (20_memory.md R72). -/
abbrev plainAddr (a : Word) : Prop := a.toNat < 0x2000 ∨ 0x4018 ≤ a.toNat

/-- The state is at an instruction boundary where no interrupt is taken (60_exceptions.md R250). -/
abbrev State.AtInstruction (s : State) : Prop :=
  s.wait = 0 ∧ s.nmiPending = false ∧ (s.irqPending && !s.p.i) = false

/-- `k` steps from `s` end in `t`, none of them refused. -/
abbrev Reaches (k : Nat) (s t : State) : Prop := Host.Core.run Sys2Proof.core k s = .next t

/-- A run of `k` steps from `s` that is not refused: the safe runs. The machine never faults. -/
abbrev SafeFor (k : Nat) (s : State) : Prop := ∃ t, Reaches k s t

end Sys2Proof.Machine
end

