-- ==== Sys2Proof/Certificates/Slice0/Obligations.lean ====
section
/-! DEFINITION. The statements for the provers. The tables in `Sys2Proof.Spec` are copied from the spec's
own tables (opcode_table.json, 10_state.md R21 to R26, 70_reset_and_hazards.md R351), not from the
model's functions: a statement that uses one compares the model with the table. -/

namespace Sys2Proof.Spec

open Sys2Proof.Machine

/-- The column "cycles" of opcode_table.json by opcode byte, sixteen a line. -/
def cyclesColumn : List Nat :=
  [7, 6, 2, 2, 2, 3, 5, 2, 3, 2, 2, 2, 2, 4, 6, 2] ++
  [2, 5, 2, 2, 2, 4, 6, 2, 2, 4, 2, 2, 2, 4, 7, 2] ++
  [6, 6, 2, 2, 3, 3, 5, 2, 4, 2, 2, 2, 4, 4, 6, 2] ++
  [2, 5, 2, 2, 2, 4, 6, 2, 2, 4, 2, 2, 2, 4, 7, 2] ++
  [6, 6, 2, 2, 2, 3, 5, 2, 3, 2, 2, 2, 3, 4, 6, 2] ++
  [2, 5, 2, 2, 2, 4, 6, 2, 2, 4, 2, 2, 2, 4, 7, 2] ++
  [6, 6, 2, 2, 2, 3, 5, 2, 4, 2, 2, 2, 5, 4, 6, 2] ++
  [2, 5, 2, 2, 2, 4, 6, 2, 2, 4, 2, 2, 2, 4, 7, 2] ++
  [2, 6, 2, 2, 3, 3, 3, 2, 2, 2, 2, 2, 4, 4, 4, 2] ++
  [2, 6, 2, 2, 4, 4, 4, 2, 2, 5, 2, 2, 2, 5, 2, 2] ++
  [2, 6, 2, 2, 3, 3, 3, 2, 2, 2, 2, 2, 4, 4, 4, 2] ++
  [2, 5, 2, 2, 4, 4, 4, 2, 2, 4, 2, 2, 4, 4, 4, 2] ++
  [2, 6, 2, 2, 3, 3, 5, 2, 2, 2, 2, 2, 4, 4, 6, 2] ++
  [2, 5, 2, 2, 2, 4, 6, 2, 2, 4, 2, 2, 2, 4, 7, 2] ++
  [2, 6, 2, 2, 3, 3, 5, 2, 2, 2, 2, 2, 4, 4, 6, 2] ++
  [2, 5, 2, 2, 2, 4, 6, 2, 2, 4, 2, 2, 2, 4, 7, 2]

/-- The base cost of an opcode (30_encoding.md R105). -/
def baseCycles (op : Byte) : Nat := cyclesColumn.getD op.toNat 0

/-- The 23 opcodes that take the page-cross surcharge (70_reset_and_hazards.md R351). -/
def pageCrossOpcodes : List Byte :=
  [0x11#8, 0x19#8, 0x1D#8, 0x31#8, 0x39#8, 0x3D#8, 0x51#8, 0x59#8, 0x5D#8, 0x71#8, 0x79#8, 0x7D#8] ++
  [0xB1#8, 0xB9#8, 0xBC#8, 0xBD#8, 0xBE#8, 0xD1#8, 0xD9#8, 0xDD#8, 0xF1#8, 0xF9#8, 0xFD#8]

/-- The memory mode of a read operand. -/
def readMode : ReadOperand → Option MemMode
  | .imm _ => none
  | .mem m => some m

/-- The memory mode of a read-modify-write operand. -/
def modMode : ModOperand → Option MemMode
  | .acc => none
  | .mem m => some m

/-- The memory mode of an instruction's operand, where it has one. -/
def memMode : Instr → Option MemMode
  | .lda m => readMode (aluOperand m)
  | .ldx m => readMode (ldxOperand m)
  | .ldy m => readMode (ldyOperand m)
  | .sta m => some (staMode m)
  | .stx m => some (stxMode m)
  | .sty m => some (styMode m)
  | .tax => none
  | .tay => none
  | .txa => none
  | .tya => none
  | .tsx => none
  | .txs => none
  | .adc m => readMode (aluOperand m)
  | .sbc m => readMode (aluOperand m)
  | .and m => readMode (aluOperand m)
  | .ora m => readMode (aluOperand m)
  | .eor m => readMode (aluOperand m)
  | .cmp m => readMode (aluOperand m)
  | .cpx m => readMode (cpOperand m)
  | .cpy m => readMode (cpOperand m)
  | .bit m => readMode (bitOperand m)
  | .inc m => modMode (incOperand m)
  | .inx => none
  | .iny => none
  | .dec m => modMode (incOperand m)
  | .dex => none
  | .dey => none
  | .asl m => modMode (shiftOperand m)
  | .lsr m => modMode (shiftOperand m)
  | .rol m => modMode (shiftOperand m)
  | .ror m => modMode (shiftOperand m)
  | .jmp _ => none
  | .jsr _ => none
  | .rts => none
  | .bcc _ => none
  | .bcs _ => none
  | .beq _ => none
  | .bne _ => none
  | .bmi _ => none
  | .bpl _ => none
  | .bvc _ => none
  | .bvs _ => none
  | .pha => none
  | .php => none
  | .pla => none
  | .plp => none
  | .clc => none
  | .sec => none
  | .cli => none
  | .sei => none
  | .clv => none
  | .cld => none
  | .sed => none
  | .nop => none
  | .brk => none
  | .rti => none
  | .und _ => none

/-- The mnemonic of an instruction, as the table spells it. -/
def mnemonic : Instr → String
  | .lda _ => "LDA"
  | .ldx _ => "LDX"
  | .ldy _ => "LDY"
  | .sta _ => "STA"
  | .stx _ => "STX"
  | .sty _ => "STY"
  | .tax => "TAX"
  | .tay => "TAY"
  | .txa => "TXA"
  | .tya => "TYA"
  | .tsx => "TSX"
  | .txs => "TXS"
  | .adc _ => "ADC"
  | .sbc _ => "SBC"
  | .and _ => "AND"
  | .ora _ => "ORA"
  | .eor _ => "EOR"
  | .cmp _ => "CMP"
  | .cpx _ => "CPX"
  | .cpy _ => "CPY"
  | .bit _ => "BIT"
  | .inc _ => "INC"
  | .inx => "INX"
  | .iny => "INY"
  | .dec _ => "DEC"
  | .dex => "DEX"
  | .dey => "DEY"
  | .asl _ => "ASL"
  | .lsr _ => "LSR"
  | .rol _ => "ROL"
  | .ror _ => "ROR"
  | .jmp _ => "JMP"
  | .jsr _ => "JSR"
  | .rts => "RTS"
  | .bcc _ => "BCC"
  | .bcs _ => "BCS"
  | .beq _ => "BEQ"
  | .bne _ => "BNE"
  | .bmi _ => "BMI"
  | .bpl _ => "BPL"
  | .bvc _ => "BVC"
  | .bvs _ => "BVS"
  | .pha => "PHA"
  | .php => "PHP"
  | .pla => "PLA"
  | .plp => "PLP"
  | .clc => "CLC"
  | .sec => "SEC"
  | .cli => "CLI"
  | .sei => "SEI"
  | .clv => "CLV"
  | .cld => "CLD"
  | .sed => "SED"
  | .nop => "NOP"
  | .brk => "BRK"
  | .rti => "RTI"
  | .und _ => "UND"

/-- The page-cross surcharge of an instruction in a state (R351). -/
def surcharge (i : Instr) (s : State) : Nat :=
  match memMode i with
  | some m => if pageCrossOpcodes.contains i.opcode && crossed m s then 1 else 0
  | none => 0

/-- `u` after the cost of `i`, begun in `s`, is charged: the base cost, the surcharge, `extra` cycles and
the DMA stall, of which this cycle is the first (30_encoding.md R111, 60_exceptions.md R250). -/
def charged (i : Instr) (s : State) (extra : Nat) (u : State) : State :=
  { u with wait := baseCycles i.opcode + surcharge i s + extra + u.dmaExtra - 1, dmaExtra := 0 }

/-- The default end of `i`, begun in `s`, whose effect gave `u` (00_scope.md R14): the next instruction is
`i`'s length further, and the cost is charged. -/
def done (i : Instr) (s u : State) : State :=
  charged i s 0 { u with pc := u.pc + BitVec.ofNat 16 i.length }

/-- `SetZN` (00_scope.md R12) as arithmetic: zero, and bit 7. -/
def zn (f : Flags) (v : Byte) : Flags :=
  { f with z := decide (v.toNat = 0), n := decide (128 ≤ v.toNat) }

/-- The status image (10_state.md R27) as a sum of its bits. -/
def image (f : Flags) (brk : Bool) : Byte :=
  BitVec.ofNat 8 (128 * f.n.toNat + 64 * f.v.toNat + 32 + 16 * brk.toNat + 8 * f.d.toNat +
    4 * f.i.toNat + 2 * f.z.toNat + f.c.toNat)

/-- High and low byte of a word as arithmetic (00_scope.md R8). -/
def high (w : Word) : Byte := BitVec.ofNat 8 (w.toNat / 256)

/-- The low byte. -/
def low (w : Word) : Byte := BitVec.ofNat 8 (w.toNat % 256)

/-- The RAM cell of the stack page at stack pointer `sp` (40_addressing_modes.md R133). -/
def cell (sp : Byte) : Nat := 256 + sp.toNat

/-- `RAM` with `w` pushed at `sp`, high byte first (R133). -/
def pushed16 (ram : Memory) (sp : Byte) (w : Word) : Memory :=
  (ram.write (cell sp) (high w)).write (cell (sp - 1#8)) (low w)

/-- The instructions that store to their memory operand, if they have one. -/
def storers : List String := ["STA", "STX", "STY", "INC", "DEC", "ASL", "LSR", "ROL", "ROR"]

/-- The instructions that write `P.Z` and `P.N` (R26). -/
def writesZN : List String :=
  ["LDA", "LDX", "LDY", "TAX", "TAY", "TXA", "TYA", "TSX", "PLA", "ADC", "SBC", "AND", "ORA", "EOR"] ++
  ["CMP", "CPX", "CPY", "BIT", "INC", "INX", "INY", "DEC", "DEX", "DEY", "ASL", "LSR", "ROL", "ROR"] ++
  ["PLP", "RTI"]

/-- The instructions that write `P.C` (R26). -/
def writesC : List String :=
  ["ADC", "SBC", "CMP", "CPX", "CPY", "ASL", "LSR", "ROL", "ROR", "CLC", "SEC", "PLP", "RTI"]

/-- The instructions that write `A` (R21); a shift or rotate does so in its accumulator form. -/
def writesA : List String :=
  ["LDA", "PLA", "TXA", "TYA", "ADC", "SBC", "AND", "ORA", "EOR", "ASL", "LSR", "ROL", "ROR"]

/-- The instructions that write `S` (R23). -/
def writesS : List String :=
  ["TXS", "PHA", "PHP", "PLA", "PLP", "JSR", "RTS", "BRK", "RTI"]

/-- The RAM cell behind an address of the RAM window (20_memory.md R61), if it is one. -/
def ramCell (a : Word) : Option Nat := if a.toNat < 0x2000 then some (a.toNat % 0x800) else none

/-- `t` has the device records of `s`. -/
abbrev SameDevices (s t : State) : Prop :=
  t.ppu = s.ppu ∧ t.apu = s.apu ∧ t.pads = s.pads ∧ t.cart = s.cart

/-- `n` reads of $4016 one after another leave this state. -/
def reads4016 (n : Nat) (s : State) : State := (fun u => (ioRead 0x4016#16 u).2)^[n] s

/-- `n` reads of $4017. -/
def reads4017 (n : Nat) (s : State) : State := (fun u => (ioRead 0x4017#16 u).2)^[n] s

/-- The 151 opcodes of the table of R105, mnemonic by mnemonic in its order of columns. -/
def documentedOpcodes : List Byte :=
  [0xA9#8, 0xA5#8, 0xB5#8, 0xAD#8, 0xBD#8, 0xB9#8, 0xA1#8, 0xB1#8, 0xA2#8, 0xA6#8, 0xB6#8, 0xAE#8, 0xBE#8] ++
  [0xA0#8, 0xA4#8, 0xB4#8, 0xAC#8, 0xBC#8, 0x85#8, 0x95#8, 0x8D#8, 0x9D#8, 0x99#8, 0x81#8, 0x91#8, 0x86#8] ++
  [0x96#8, 0x8E#8, 0x84#8, 0x94#8, 0x8C#8, 0xAA#8, 0xA8#8, 0x8A#8, 0x98#8, 0xBA#8, 0x9A#8, 0x69#8, 0x65#8] ++
  [0x75#8, 0x6D#8, 0x7D#8, 0x79#8, 0x61#8, 0x71#8, 0xE9#8, 0xE5#8, 0xF5#8, 0xED#8, 0xFD#8, 0xF9#8, 0xE1#8] ++
  [0xF1#8, 0x29#8, 0x25#8, 0x35#8, 0x2D#8, 0x3D#8, 0x39#8, 0x21#8, 0x31#8, 0x09#8, 0x05#8, 0x15#8, 0x0D#8] ++
  [0x1D#8, 0x19#8, 0x01#8, 0x11#8, 0x49#8, 0x45#8, 0x55#8, 0x4D#8, 0x5D#8, 0x59#8, 0x41#8, 0x51#8, 0xC9#8] ++
  [0xC5#8, 0xD5#8, 0xCD#8, 0xDD#8, 0xD9#8, 0xC1#8, 0xD1#8, 0xE0#8, 0xE4#8, 0xEC#8, 0xC0#8, 0xC4#8, 0xCC#8] ++
  [0x24#8, 0x2C#8, 0xE6#8, 0xF6#8, 0xEE#8, 0xFE#8, 0xE8#8, 0xC8#8, 0xC6#8, 0xD6#8, 0xCE#8, 0xDE#8, 0xCA#8] ++
  [0x88#8, 0x0A#8, 0x06#8, 0x16#8, 0x0E#8, 0x1E#8, 0x4A#8, 0x46#8, 0x56#8, 0x4E#8, 0x5E#8, 0x2A#8, 0x26#8] ++
  [0x36#8, 0x2E#8, 0x3E#8, 0x6A#8, 0x66#8, 0x76#8, 0x6E#8, 0x7E#8, 0x4C#8, 0x6C#8, 0x20#8, 0x60#8, 0x90#8] ++
  [0xB0#8, 0xF0#8, 0xD0#8, 0x30#8, 0x10#8, 0x50#8, 0x70#8, 0x48#8, 0x08#8, 0x68#8, 0x28#8, 0x18#8, 0x38#8] ++
  [0x58#8, 0x78#8, 0xB8#8, 0xD8#8, 0xF8#8, 0xEA#8, 0x00#8, 0x40#8]

/-- A load of an operand through the bus (40_addressing_modes.md R137), none where it is refused. -/
def operandRead (o : ReadOperand) (s : State) : Option (Byte × State) :=
  match o with
  | .imm b => some (b, s)
  | .mem m =>
    match memRead (effAddr m s) s with
    | .ok r => some r
    | .error _ => none

/-- What `step` adds around a meaning: the device ticks of the cycle (60_exceptions.md R300). -/
def stepWith (o : Host.Outcome State Fault Refusal) : Host.Outcome State Fault Refusal :=
  match o with
  | .next t => .next (deviceTicks t)
  | .fault f => .fault f
  | .refused r => .refused r

/-- The flags after a comparison of `r` with `m` (42_arithmetic_logic.md R165). -/
def compared (f : Flags) (r m : Byte) : Flags :=
  { f with c := decide (m.toNat ≤ r.toNat), z := decide (r.toNat = m.toNat),
           n := decide (128 ≤ (r.toNat + 256 - m.toNat) % 256) }

/-- The four shifts and rotates. -/
inductive ShiftKind where
  | asl
  | lsr
  | rol
  | ror

/-- The instruction of a kind in a form. -/
def ShiftKind.instr (k : ShiftKind) (f : ShiftForm) : Instr :=
  match k with
  | .asl => .asl f
  | .lsr => .lsr f
  | .rol => .rol f
  | .ror => .ror f

/-- The result by arithmetic (43_inc_dec_shift.md R186 to R189). -/
def ShiftKind.result (k : ShiftKind) (m : Byte) (c : Bool) : Byte :=
  match k with
  | .asl => BitVec.ofNat 8 (m.toNat * 2 % 256)
  | .lsr => BitVec.ofNat 8 (m.toNat / 2)
  | .rol => BitVec.ofNat 8 (m.toNat * 2 % 256 + c.toNat)
  | .ror => BitVec.ofNat 8 (m.toNat / 2 + 128 * c.toNat)

/-- The flags (R186 to R189): C is the bit that leaves. -/
def ShiftKind.flags (k : ShiftKind) (m : Byte) (f : Flags) : Flags :=
  match k with
  | .asl => zn { f with c := decide (128 ≤ m.toNat) } (k.result m f.c)
  | .lsr => zn { f with c := decide (m.toNat % 2 = 1) } (k.result m f.c)
  | .rol => zn { f with c := decide (128 ≤ m.toNat) } (k.result m f.c)
  | .ror => zn { f with c := decide (m.toNat % 2 = 1) } (k.result m f.c)

/-- The eight branches with their conditions (44_control_flow.md R204 to R211). -/
def branchTable (off : Byte) (s : State) : List (Instr × Bool) :=
  [(.bcc off, !s.p.c), (.bcs off, s.p.c), (.beq off, s.p.z), (.bne off, !s.p.z),
   (.bmi off, s.p.n), (.bpl off, !s.p.n), (.bvc off, !s.p.v), (.bvs off, s.p.v)]

/-- `UnpackP` as arithmetic on the byte (10_state.md R27). -/
def unimage (b : Byte) : Flags :=
  { c := decide (b.toNat % 2 = 1), z := decide (b.toNat / 2 % 2 = 1), i := decide (b.toNat / 4 % 2 = 1),
    d := decide (b.toNat / 8 % 2 = 1), v := decide (b.toNat / 64 % 2 = 1),
    n := decide (b.toNat / 128 % 2 = 1) }

/-- `s` with the decimal flag set to `d`. -/
def withD (d : Bool) (s : State) : State := { s with p := { s.p with d := d } }

/-- The instructions that set `PC` themselves (44_control_flow.md, R232, R233). -/
def transfers : List String :=
  ["JMP", "JSR", "RTS", "BCC", "BCS", "BEQ", "BNE", "BMI", "BPL", "BVC", "BVS", "BRK", "RTI"]

/-- The mode of an instruction that stores to its memory operand. -/
def storeMode (i : Instr) : Option MemMode :=
  if storers.contains (mnemonic i) then memMode i else none

/-- The instruction, in this form, stores to no memory. -/
def storesNothing (i : Instr) : Bool :=
  (storeMode i).isNone && !(["PHA", "PHP", "JSR", "BRK"].contains (mnemonic i))

/-- The storage cell behind a PPU address (20_memory.md R76): which array and which index. -/
def ppuCell (m : Mirroring) (a : Nat) : Nat × Nat :=
  if a < 0x2000 then (0, a)
  else if a < 0x3F00 then
    (1, (match m with
      | .horizontal => a / 2048 % 2
      | .vertical => a / 1024 % 2) * 1024 + a % 1024)
  else (2, if a % 32 = 16 ∨ a % 32 = 20 ∨ a % 32 = 24 ∨ a % 32 = 28 then a % 16 else a % 32)

/-- The loop of 60_exceptions.md R296. -/
def dmaLoop (v : Byte) (s : State) : Except Refusal State := do
  let u ← (List.range 256).foldlM (fun (u : State) (i : Nat) => do
    let (b, u') ← memRead (BitVec.ofNat 16 (v.toNat * 256 + i)) u
    pure { u' with ppu := { u'.ppu with
      oam := u'.ppu.oam.write ((u'.ppu.oamaddr.toNat + i) % 256) b } }) s
  pure { u with dmaExtra := 513 + u.cyc % 2 }

end Sys2Proof.Spec

open Sys2Proof Sys2Proof.Machine Sys2Proof.Spec

/-! ### Encoding -/

/-- Decoding the bytes of a well-formed instruction gives it back and leaves the bytes after it: no bit
of an encoding is dropped (30_encoding.md R101, R103, R105, R107). -/
def Obligations.DecodeEncodeRoundTrip : Prop :=
  ∀ (i : Instr) (rest : List Byte), i.wf = true → decode (encode i ++ rest) = .ok (i, rest)

/-- The other direction: what the decoder accepts is the encoding of a well-formed instruction, whose
length is one to three bytes (R100, R101); so one byte sequence has one meaning. -/
def Obligations.EncodeDecodeRoundTrip : Prop :=
  ∀ (bytes rest : List Byte) (i : Instr), decode bytes = .ok (i, rest) →
    encode i ++ rest = bytes ∧ i.wf = true ∧ i.length = (encode i).length ∧ 1 ≤ i.length ∧ i.length ≤ 3

/-- R112: the opcode byte alone selects the row: the mnemonic, the length and whether there is a memory
operand are the same whatever the operand bytes are, and decoding three bytes never fails. -/
def Obligations.OpcodeAloneSelectsRow : Prop :=
  ∀ op : Byte, ∃ (name : String) (len : Nat) (hasMem : Bool), 1 ≤ len ∧ len ≤ 3 ∧
    ∀ (b1 b2 : Byte) (rest : List Byte), ∃ i,
      decode (op :: b1 :: b2 :: rest) = .ok (i, (op :: b1 :: b2 :: rest).drop len) ∧
      i.opcode = op ∧ i.length = len ∧ mnemonic i = name ∧ (memMode i).isSome = hasMem ∧ i.wf = true

/-- Words written out from the table of R105 and the formats of R101, one at least for each family. -/
def Obligations.SampleEncodings : Prop :=
  decode [0xA9#8, 0x01#8] = .ok (.lda (.imm 0x01#8), []) ∧
  decode [0x8D#8, 0x00#8, 0x02#8] = .ok (.sta (.abs 0x0200#16), []) ∧
  decode [0xB6#8, 0xFF#8] = .ok (.ldx (.zpy 0xFF#8), []) ∧
  decode [0xBA#8] = .ok (.tsx, []) ∧
  decode [0x71#8, 0x86#8] = .ok (.adc (.izy 0x86#8), []) ∧
  decode [0xE1#8, 0x20#8] = .ok (.sbc (.izx 0x20#8), []) ∧
  decode [0xDD#8, 0xF0#8, 0x20#8] = .ok (.cmp (.abx 0x20F0#16), []) ∧
  decode [0x39#8, 0x00#8, 0x03#8] = .ok (.and (.aby 0x0300#16), []) ∧
  decode [0x2C#8, 0x02#8, 0x20#8] = .ok (.bit (.abs 0x2002#16), []) ∧
  decode [0xFE#8, 0x34#8, 0x12#8] = .ok (.inc (.abx 0x1234#16), []) ∧
  decode [0x6A#8] = .ok (.ror .acc, []) ∧
  decode [0x6C#8, 0xFF#8, 0x02#8] = .ok (.jmp (.ind 0x02FF#16), []) ∧
  decode [0x20#8, 0x10#8, 0x80#8] = .ok (.jsr 0x8010#16, []) ∧
  decode [0xD0#8, 0xFB#8] = .ok (.bne 0xFB#8, []) ∧
  decode [0x28#8] = .ok (.plp, []) ∧
  decode [0x00#8, 0xFF#8] = .ok (.brk, [0xFF#8]) ∧
  decode [0x40#8] = .ok (.rti, []) ∧
  decode [0x80#8, 0xA9#8] = .ok (.und 0x80#8, [0xA9#8])

/-- The 105 undefined values are exactly the opcodes that R105 does not list (R107, R241), and each
decodes to UND, one byte long. -/
def Obligations.UndefinedOpcodesAreTheComplement : Prop :=
  documentedOpcodes.length = 151 ∧ documentedOpcodes.Nodup ∧ undefinedOpcodes.length = 105 ∧
    ∀ (op : Byte) (rest : List Byte),
      (undefinedOpcodes.contains op = !documentedOpcodes.contains op) ∧
      (documentedOpcodes.contains op = false → decode (op :: rest) = .ok (.und op, rest)) ∧
      (documentedOpcodes.contains op = true → ∀ i r, decode (op :: rest) = .ok (i, r) →
        mnemonic i ≠ "UND")

/-! ### The step -/

/-- A step at an instruction boundary without an interrupt runs the decoded instruction (R111, R250,
R300): first with the bytes that plain addresses hold at `PC`, then for any fetch through the bus, with
its side effects; then the three PPU ticks and the APU tick follow. -/
def Obligations.StepRunsDecodedInstruction : Prop :=
  (∀ (s : State) (b0 b1 b2 : Byte) (i : Instr) (rest : List Byte),
    s.AtInstruction → s.Nrom →
    plainAddr s.pc → plainAddr (s.pc + 1#16) → plainAddr (s.pc + 2#16) →
    peek s s.pc = some b0 → peek s (s.pc + 1#16) = some b1 → peek s (s.pc + 2#16) = some b2 →
    decode [b0, b1, b2] = .ok (i, rest) →
    step s = stepWith (exec i { s with cyc := s.cyc + 1 })) ∧
  (∀ (s : State), s.AtInstruction →
    step s = stepWith (match fetchInstr { s with cyc := s.cyc + 1 } with
      | .ok (i, u) => exec i u
      | .error r => .refused r)) ∧
  (∀ (s u0 u1 u2 : State) (b0 b1 b2 : Byte) (i : Instr) (rest : List Byte),
    memRead s.pc s = .ok (b0, u0) → memRead (s.pc + 1#16) u0 = .ok (b1, u1) →
    memRead (s.pc + 2#16) u1 = .ok (b2, u2) → decode [b0, b1, b2] = .ok (i, rest) →
    fetchInstr s = .ok (i, if i.length = 1 then u0 else if i.length = 2 then u1 else u2))

/-- `CpuCycle()` (R250): `cyc` counts every cycle; with `wait` above 0 nothing else happens but the count
down and the device ticks; at a boundary NMI comes before IRQ, which `P.I` masks (R255), and each of them
is an entry that takes 7 cycles. The last three clauses say what the device ticks of a cycle (R281, R285,
R292, R300), which every step ends with, leave unchanged: the CPU, RAM, the PPU's memories and its registers
but for the raster, the three status flags and what `Render` gives, the APU's control bits, the controllers
and the cartridge but for its bank registers; the latches they can only set; while rendering is disabled
nothing of `Render`, the frame buffer included (log 14: that is the model's reading of R281), and the
sprite flags rise on visible scanlines only. -/
def Obligations.CpuCycleSequencing : Prop :=
  (∀ s : State, 0 < s.wait →
    step s = .next (deviceTicks { s with cyc := s.cyc + 1, wait := s.wait - 1 })) ∧
  (∀ s : State, s.wait = 0 → s.nmiPending = true →
    step s = .next (deviceTicks
      { interrupt .nmi { s with cyc := s.cyc + 1, nmiPending := false } with wait := 7 - 1 })) ∧
  (∀ s : State, s.wait = 0 → s.nmiPending = false → (s.apu.frameIrq || s.cart.irq) = true →
    s.p.i = false →
    step s = .next (deviceTicks { interrupt .irq { s with cyc := s.cyc + 1 } with wait := 7 - 1 })) ∧
  (∀ s : State, s.wait = 0 → s.nmiPending = false →
    ((s.apu.frameIrq || s.cart.irq) = false ∨ s.p.i = true) →
    step s = stepWith (executeOne { s with cyc := s.cyc + 1 })) ∧
  (∀ s : State,
    let t := deviceTicks s
    t = { s with
      nmiPending := t.nmiPending
      ppu := { s.ppu with
        v := t.ppu.v, oamaddr := t.ppu.oamaddr, scanline := t.ppu.scanline, dot := t.ppu.dot,
        odd := t.ppu.odd, vblank := t.ppu.vblank, spr0 := t.ppu.spr0, sprovf := t.ppu.sprovf }
      frameBuf := t.frameBuf
      apu := { s.apu with frameIrq := t.apu.frameIrq, fc := t.apu.fc }
      cart := { s.cart with regs := t.cart.regs }
      frameComplete := t.frameComplete } ∧
    (s.nmiPending = true → t.nmiPending = true) ∧ (s.apu.frameIrq = true → t.apu.frameIrq = true) ∧
    (s.frameComplete = true → t.frameComplete = true) ∧ (s.Nrom → t.cart = s.cart)) ∧
  (∀ s : State, s.ppu.renderingEnabled = false →
    let t := deviceTicks s
    t.ppu.v = s.ppu.v ∧ t.ppu.oamaddr = s.ppu.oamaddr ∧ t.frameBuf = s.frameBuf ∧ t.cart = s.cart ∧
    (t.ppu.spr0 = true → s.ppu.spr0 = true) ∧ (t.ppu.sprovf = true → s.ppu.sprovf = true)) ∧
  (∀ s : State,
    let t := deviceTicks s
    239 < s.ppu.scanline → 239 < t.ppu.scanline →
    (t.ppu.spr0 = true → s.ppu.spr0 = true) ∧ (t.ppu.sprovf = true → s.ppu.sprovf = true))

/-- `Interrupt(kind)` (R256): the return address is pushed high byte first, then the status image with
the break marker of the kind, at the three cells below the stack pointer, which wraps in page one; `P.I`
is set; `PC` comes from the kind's vector, low byte first; nothing else changes but what reading the two
vector bytes does to the cartridge. -/
def Obligations.InterruptEntry : Prop :=
  ∀ (k : InterruptKind) (s : State),
    let ret : Word := match k with | .nmi => s.pc | .irq => s.pc | .brk => s.pc + 2#16
    let marker : Bool := match k with | .nmi => false | .irq => false | .brk => true
    let vec : Word := match k with | .nmi => 0xFFFA#16 | .irq => 0xFFFE#16 | .brk => 0xFFFE#16
    let lo := s.cart.cpuRead s.params.openBus vec
    let hi := lo.2.cpuRead s.params.openBus (vec + 1#16)
    interrupt k s =
      { s with
        ram := (pushed16 s.ram s.sp ret).write (cell (s.sp - 2#8)) (image s.p marker)
        sp := s.sp - 3#8
        p := { s.p with i := true }
        pc := BitVec.ofNat 16 (hi.1.toNat * 256 + lo.1.toNat)
        cart := hi.2 }

/-- Outside rendering every instruction of every form completes, in every state, and so does every step:
the machine has no fault (R13), and the only access it does not define is one of $2007 while rendering
(R278). -/
def Obligations.CompletesOutsideRendering : Prop :=
  ∀ s : State, s.ppu.rendering = false →
    (∀ i : Instr, ∃ t, exec i s = .next t) ∧ (∃ t, step s = .next t)

/-- The machine stops for one reason only: an access to PPU register 7 while rendering (R278, U5). An
instruction whose operand is not such an address completes even then. -/
def Obligations.RefusalOnlyWhileRendering : Prop :=
  (∀ (i : Instr) (s : State) (r : Refusal), exec i s = .refused r →
    r = .ppuDataWhileRendering ∧ s.ppu.rendering = true) ∧
  (∀ (s : State) (r : Refusal), step s = .refused r →
    r = .ppuDataWhileRendering ∧ s.ppu.rendering = true ∧ s.wait = 0 ∧ s.nmiPending = false) ∧
  (∀ (i : Instr) (s : State), (memMode i).all (fun m => plainAddr (effAddr m s)) = true →
    (∀ w, i ≠ .jmp (.ind w)) → ∃ t, exec i s = .next t)

/-! ### Results of the instructions -/

/-- LDA, LDX, LDY (R140, R141, R142): the operand goes to the register, Z and N follow it, every other
element is as the operand's read left it, and the cost is the base plus the page-cross surcharge. -/
def Obligations.LoadResults : Prop :=
  (∀ (m : AluForm) (s t : State) (b : Byte), operandRead (aluOperand m) s = some (b, t) →
    exec (.lda m) s = .next (done (.lda m) s { t with a := b, p := zn t.p b })) ∧
  (∀ (m : LdxForm) (s t : State) (b : Byte), operandRead (ldxOperand m) s = some (b, t) →
    exec (.ldx m) s = .next (done (.ldx m) s { t with x := b, p := zn t.p b })) ∧
  (∀ (m : LdyForm) (s t : State) (b : Byte), operandRead (ldyOperand m) s = some (b, t) →
    exec (.ldy m) s = .next (done (.ldy m) s { t with y := b, p := zn t.p b })) ∧
  (∀ (b : Byte) (w : Word),
    [Instr.lda (.imm b), .lda (.zp b), .lda (.zpx b), .lda (.abs w), .lda (.abx w), .lda (.aby w),
      .lda (.izx b), .lda (.izy b)].map Instr.opcode =
      [0xA9#8, 0xA5#8, 0xB5#8, 0xAD#8, 0xBD#8, 0xB9#8, 0xA1#8, 0xB1#8] ∧
    [Instr.ldx (.imm b), .ldx (.zp b), .ldx (.zpy b), .ldx (.abs w), .ldx (.aby w)].map Instr.opcode =
      [0xA2#8, 0xA6#8, 0xB6#8, 0xAE#8, 0xBE#8] ∧
    [Instr.ldy (.imm b), .ldy (.zp b), .ldy (.zpx b), .ldy (.abs w), .ldy (.abx w)].map Instr.opcode =
      [0xA0#8, 0xA4#8, 0xB4#8, 0xAC#8, 0xBC#8])

/-- STA, STX, STY (R143, R144, R145): one write of the register at the effective address, no read of it,
no flag, and a cost without surcharge. -/
def Obligations.StoreResults : Prop :=
  (∀ (m : StaForm) (s t : State), memWrite (effAddr (staMode m) s) s.a s = .ok t →
    exec (.sta m) s = .next (done (.sta m) s t) ∧ t.p = s.p ∧ surcharge (.sta m) s = 0) ∧
  (∀ (m : StxForm) (s t : State), memWrite (effAddr (stxMode m) s) s.x s = .ok t →
    exec (.stx m) s = .next (done (.stx m) s t) ∧ t.p = s.p ∧ surcharge (.stx m) s = 0) ∧
  (∀ (m : StyForm) (s t : State), memWrite (effAddr (styMode m) s) s.y s = .ok t →
    exec (.sty m) s = .next (done (.sty m) s t) ∧ t.p = s.p ∧ surcharge (.sty m) s = 0) ∧
  (∀ (b : Byte) (w : Word),
    [Instr.sta (.zp b), .sta (.zpx b), .sta (.abs w), .sta (.abx w), .sta (.aby w), .sta (.izx b),
      .sta (.izy b)].map Instr.opcode = [0x85#8, 0x95#8, 0x8D#8, 0x9D#8, 0x99#8, 0x81#8, 0x91#8] ∧
    [Instr.stx (.zp b), .stx (.zpy b), .stx (.abs w)].map Instr.opcode = [0x86#8, 0x96#8, 0x8E#8] ∧
    [Instr.sty (.zp b), .sty (.zpx b), .sty (.abs w)].map Instr.opcode = [0x84#8, 0x94#8, 0x8C#8])

/-- The six transfers (R146 to R151): each copies one register, TXS alone leaves Z and N; one byte, two
cycles. -/
def Obligations.TransferResults : Prop :=
  ∀ s : State,
    exec .tax s = .next (done .tax s { s with x := s.a, p := zn s.p s.a }) ∧
    exec .tay s = .next (done .tay s { s with y := s.a, p := zn s.p s.a }) ∧
    exec .txa s = .next (done .txa s { s with a := s.x, p := zn s.p s.x }) ∧
    exec .tya s = .next (done .tya s { s with a := s.y, p := zn s.p s.y }) ∧
    exec .tsx s = .next (done .tsx s { s with x := s.sp, p := zn s.p s.sp }) ∧
    exec .txs s = .next (done .txs s { s with sp := s.x }) ∧
    [Instr.tax, .tay, .txa, .tya, .tsx, .txs].map encode =
      [[0xAA#8], [0xA8#8], [0x8A#8], [0x98#8], [0xBA#8], [0x9A#8]] ∧
    [Instr.tax, .tay, .txa, .tya, .tsx, .txs].map (fun i => baseCycles i.opcode) = [2, 2, 2, 2, 2, 2]

/-- ADC (R160): the integer sum with the carry, its low byte, the carry out, and the signed overflow, by
the formula of R160 and, in the last clause, as the true signed sum leaving -128 to 127 (R169). -/
def Obligations.AdcResult : Prop :=
  (∀ (m : AluForm) (s t : State) (b : Byte), operandRead (aluOperand m) s = some (b, t) →
    let sum := s.a.toNat + b.toNat + s.p.c.toNat
    let r : Byte := BitVec.ofNat 8 (sum % 256)
    exec (.adc m) s = .next (done (.adc m) s { t with
      a := r
      p := zn { t.p with c := decide (255 < sum)
                         v := decide (((s.a ^^^ r) &&& (b ^^^ r) &&& 0x80#8) ≠ 0#8) } r })) ∧
  (∀ (b : Byte) (w : Word),
    [Instr.adc (.imm b), .adc (.zp b), .adc (.zpx b), .adc (.abs w), .adc (.abx w), .adc (.aby w),
      .adc (.izx b), .adc (.izy b)].map Instr.opcode =
      [0x69#8, 0x65#8, 0x75#8, 0x6D#8, 0x7D#8, 0x79#8, 0x61#8, 0x71#8]) ∧
  (∀ (a b : Byte) (c : Bool),
    let r : Byte := BitVec.ofNat 8 ((a.toNat + b.toNat + c.toNat) % 256)
    ((a ^^^ r) &&& (b ^^^ r) &&& 0x80#8) ≠ 0#8 ↔
      (a.toInt + b.toInt + (c.toNat : Int) < -128 ∨ 127 < a.toInt + b.toInt + (c.toNat : Int)))

/-- SBC (R161): the same adder on the complement, which is `A - M - (1 - C)`: carry 1 means no borrow,
and the last clause says the signed overflow (R169). -/
def Obligations.SbcResult : Prop :=
  (∀ (m : AluForm) (s t : State) (b : Byte), operandRead (aluOperand m) s = some (b, t) →
    let n1 := b ^^^ 0xFF#8
    let sum := s.a.toNat + 256 - b.toNat - (1 - s.p.c.toNat)
    let r : Byte := BitVec.ofNat 8 (sum % 256)
    exec (.sbc m) s = .next (done (.sbc m) s { t with
      a := r
      p := zn { t.p with c := decide (b.toNat + (1 - s.p.c.toNat) ≤ s.a.toNat)
                         v := decide (((s.a ^^^ r) &&& (n1 ^^^ r) &&& 0x80#8) ≠ 0#8) } r })) ∧
  (∀ (b : Byte) (w : Word),
    [Instr.sbc (.imm b), .sbc (.zp b), .sbc (.zpx b), .sbc (.abs w), .sbc (.abx w), .sbc (.aby w),
      .sbc (.izx b), .sbc (.izy b)].map Instr.opcode =
      [0xE9#8, 0xE5#8, 0xF5#8, 0xED#8, 0xFD#8, 0xF9#8, 0xE1#8, 0xF1#8]) ∧
  (∀ (a b : Byte) (c : Bool),
    let r : Byte := BitVec.ofNat 8 ((a.toNat + 256 - b.toNat - (1 - c.toNat)) % 256)
    ((a ^^^ r) &&& ((b ^^^ 0xFF#8) ^^^ r) &&& 0x80#8) ≠ 0#8 ↔
      (a.toInt - b.toInt - (1 - (c.toNat : Int)) < -128 ∨
        127 < a.toInt - b.toInt - (1 - (c.toNat : Int))))

/-- AND, ORA, EOR (R162, R163, R164). -/
def Obligations.LogicResults : Prop :=
  (∀ (m : AluForm) (s t : State) (b : Byte), operandRead (aluOperand m) s = some (b, t) →
    exec (.and m) s = .next (done (.and m) s { t with a := s.a &&& b, p := zn t.p (s.a &&& b) }) ∧
    exec (.ora m) s = .next (done (.ora m) s { t with a := s.a ||| b, p := zn t.p (s.a ||| b) }) ∧
    exec (.eor m) s = .next (done (.eor m) s { t with a := s.a ^^^ b, p := zn t.p (s.a ^^^ b) })) ∧
  (∀ (b : Byte) (w : Word),
    [Instr.and (.imm b), .and (.zp b), .and (.zpx b), .and (.abs w), .and (.abx w), .and (.aby w),
      .and (.izx b), .and (.izy b)].map Instr.opcode =
      [0x29#8, 0x25#8, 0x35#8, 0x2D#8, 0x3D#8, 0x39#8, 0x21#8, 0x31#8] ∧
    [Instr.ora (.imm b), .ora (.zp b), .ora (.zpx b), .ora (.abs w), .ora (.abx w), .ora (.aby w),
      .ora (.izx b), .ora (.izy b)].map Instr.opcode =
      [0x09#8, 0x05#8, 0x15#8, 0x0D#8, 0x1D#8, 0x19#8, 0x01#8, 0x11#8] ∧
    [Instr.eor (.imm b), .eor (.zp b), .eor (.zpx b), .eor (.abs w), .eor (.abx w), .eor (.aby w),
      .eor (.izx b), .eor (.izy b)].map Instr.opcode =
      [0x49#8, 0x45#8, 0x55#8, 0x4D#8, 0x5D#8, 0x59#8, 0x41#8, 0x51#8])

/-- CMP, CPX, CPY (R165, R166, R167): unsigned order in C, equality in Z, bit 7 of the wrapped difference
in N; no register and no other flag changes. -/
def Obligations.CompareResults : Prop :=
  (∀ (m : AluForm) (s t : State) (b : Byte), operandRead (aluOperand m) s = some (b, t) →
    exec (.cmp m) s = .next (done (.cmp m) s { t with p := compared t.p s.a b })) ∧
  (∀ (m : CpForm) (s t : State) (b : Byte), operandRead (cpOperand m) s = some (b, t) →
    exec (.cpx m) s = .next (done (.cpx m) s { t with p := compared t.p s.x b }) ∧
    exec (.cpy m) s = .next (done (.cpy m) s { t with p := compared t.p s.y b })) ∧
  (∀ (b : Byte) (w : Word),
    [Instr.cmp (.imm b), .cmp (.zp b), .cmp (.zpx b), .cmp (.abs w), .cmp (.abx w), .cmp (.aby w),
      .cmp (.izx b), .cmp (.izy b)].map Instr.opcode =
      [0xC9#8, 0xC5#8, 0xD5#8, 0xCD#8, 0xDD#8, 0xD9#8, 0xC1#8, 0xD1#8] ∧
    [Instr.cpx (.imm b), .cpx (.zp b), .cpx (.abs w), .cpy (.imm b), .cpy (.zp b), .cpy (.abs w)].map
      Instr.opcode = [0xE0#8, 0xE4#8, 0xEC#8, 0xC0#8, 0xC4#8, 0xCC#8])

/-- BIT (R168): Z from the and with A, N and V from bits 7 and 6 of the operand itself. -/
def Obligations.BitTestResult : Prop :=
  (∀ (m : BitForm) (s t : State) (b : Byte), operandRead (bitOperand m) s = some (b, t) →
    exec (.bit m) s = .next (done (.bit m) s { t with
      p := { t.p with z := decide (s.a &&& b = 0#8), n := decide (b.toNat / 128 % 2 = 1),
                      v := decide (b.toNat / 64 % 2 = 1) } })) ∧
  (∀ (b : Byte) (w : Word), [Instr.bit (.zp b), .bit (.abs w)].map Instr.opcode = [0x24#8, 0x2C#8])

/-- INC and DEC (R180, R183): one read and one write of the effective address; the result wraps, Z and N
follow it, C and V do not change. -/
def Obligations.IncDecMemoryResults : Prop :=
  (∀ (m : IncForm) (mode : MemMode) (s t u : State) (b : Byte), modMode (incOperand m) = some mode →
    memRead (effAddr mode s) s = .ok (b, t) →
    (let r : Byte := BitVec.ofNat 8 ((b.toNat + 1) % 256)
     memWrite (effAddr mode s) r t = .ok u →
     exec (.inc m) s = .next (done (.inc m) s { u with p := zn u.p r }) ∧ u.p = s.p) ∧
    (let r : Byte := BitVec.ofNat 8 ((b.toNat + 255) % 256)
     memWrite (effAddr mode s) r t = .ok u →
     exec (.dec m) s = .next (done (.dec m) s { u with p := zn u.p r }) ∧ u.p = s.p)) ∧
  (∀ (b : Byte) (w : Word),
    [Instr.inc (.zp b), .inc (.zpx b), .inc (.abs w), .inc (.abx w)].map Instr.opcode =
      [0xE6#8, 0xF6#8, 0xEE#8, 0xFE#8] ∧
    [Instr.dec (.zp b), .dec (.zpx b), .dec (.abs w), .dec (.abx w)].map Instr.opcode =
      [0xC6#8, 0xD6#8, 0xCE#8, 0xDE#8])

/-- INX, INY, DEX, DEY (R181, R182, R184, R185). -/
def Obligations.IndexIncDecResults : Prop :=
  ∀ s : State,
    (let r : Byte := BitVec.ofNat 8 ((s.x.toNat + 1) % 256)
     exec .inx s = .next (done .inx s { s with x := r, p := zn s.p r })) ∧
    (let r : Byte := BitVec.ofNat 8 ((s.y.toNat + 1) % 256)
     exec .iny s = .next (done .iny s { s with y := r, p := zn s.p r })) ∧
    (let r : Byte := BitVec.ofNat 8 ((s.x.toNat + 255) % 256)
     exec .dex s = .next (done .dex s { s with x := r, p := zn s.p r })) ∧
    (let r : Byte := BitVec.ofNat 8 ((s.y.toNat + 255) % 256)
     exec .dey s = .next (done .dey s { s with y := r, p := zn s.p r })) ∧
    [Instr.inx, .iny, .dex, .dey].map encode = [[0xE8#8], [0xC8#8], [0xCA#8], [0x88#8]]

/-- ASL, LSR, ROL, ROR (R186 to R189) by arithmetic: the bit that leaves goes to C, and the old carry
enters a rotate; the accumulator form, then the memory forms with one read and one write. -/
def Obligations.ShiftRotateResults : Prop :=
  (∀ (k : ShiftKind) (s : State),
    exec (k.instr .acc) s =
      .next (done (k.instr .acc) s { s with a := k.result s.a s.p.c, p := k.flags s.a s.p })) ∧
  (∀ (k : ShiftKind) (f : ShiftForm) (mode : MemMode) (s t u : State) (b : Byte),
    modMode (shiftOperand f) = some mode → memRead (effAddr mode s) s = .ok (b, t) →
    memWrite (effAddr mode s) (k.result b s.p.c) t = .ok u →
    exec (k.instr f) s = .next (done (k.instr f) s { u with p := k.flags b s.p })) ∧
  (∀ (b : Byte) (w : Word), [ShiftKind.asl, .lsr, .rol, .ror].map (fun k =>
      [ShiftForm.acc, .zp b, .zpx b, .abs w, .abx w].map (fun f => (k.instr f).opcode)) =
    [[0x0A#8, 0x06#8, 0x16#8, 0x0E#8, 0x1E#8], [0x4A#8, 0x46#8, 0x56#8, 0x4E#8, 0x5E#8],
     [0x2A#8, 0x26#8, 0x36#8, 0x2E#8, 0x3E#8], [0x6A#8, 0x66#8, 0x76#8, 0x6E#8, 0x7E#8]])

/-- JMP (R200): the absolute target in 3 cycles; the indirect one in 5, its high byte read from the page
of its low byte (R135); no flag and no register changes. -/
def Obligations.JmpResults : Prop :=
  (∀ (w : Word) (s : State),
    exec (.jmp (.abs w)) s = .next (charged (.jmp (.abs w)) s 0 { s with pc := w })) ∧
  (∀ (w : Word) (s t u : State) (l h : Byte), memRead w s = .ok (l, t) →
    memRead (BitVec.ofNat 16 (w.toNat / 256 * 256 + (w.toNat % 256 + 1) % 256)) t = .ok (h, u) →
    exec (.jmp (.ind w)) s = .next (charged (.jmp (.ind w)) s 0
      { u with pc := BitVec.ofNat 16 (h.toNat * 256 + l.toNat) })) ∧
  (∀ w : Word, [Instr.jmp (.abs w), .jmp (.ind w)].map (fun i => (i.opcode, baseCycles i.opcode)) =
    [(0x4C#8, 3), (0x6C#8, 5)])

/-- JSR and RTS (R201, R202): JSR pushes the address of its own last byte, high byte first; RTS pulls it,
low byte first, and adds one. -/
def Obligations.SubroutineResults : Prop :=
  (∀ (w : Word) (s : State), exec (.jsr w) s = .next (charged (.jsr w) s 0
    { s with pc := w, sp := s.sp - 2#8, ram := pushed16 s.ram s.sp (s.pc + 2#16) })) ∧
  (∀ s : State,
    let w := (s.ram.read (cell (s.sp + 2#8))).toNat * 256 + (s.ram.read (cell (s.sp + 1#8))).toNat
    exec .rts s = .next (charged .rts s 0
      { s with pc := BitVec.ofNat 16 ((w + 1) % 65536), sp := s.sp + 2#8 })) ∧
  (∀ w : Word, [Instr.jsr w, .rts].map (fun i => (i.opcode, baseCycles i.opcode)) =
    [(0x20#8, 6), (0x60#8, 6)])

/-- A JSR and the RTS that follows it come back to the instruction after the JSR with the same stack
pointer, wherever the stack pointer stands; RAM is in its canonical form, as in every state a run
reaches (`StepKeepsInv`). -/
def Obligations.JsrRtsRoundTrip : Prop :=
  ∀ (w : Word) (s : State), Memory.wf 0x800 s.ram = true → ∃ t u, exec (.jsr w) s = .next t ∧ exec .rts t = .next u ∧
    t.pc = w ∧ u.pc = s.pc + 3#16 ∧ u.sp = s.sp ∧ u.a = s.a ∧ u.x = s.x ∧ u.y = s.y ∧ u.p = s.p

/-- The eight branches (R203 to R211): the condition of each, the target counted from the next
instruction (R132), and 2, 3 or 4 cycles; no flag and no register changes. -/
def Obligations.BranchResults : Prop :=
  (∀ (off : Byte) (s : State),
    let next : Word := s.pc + 2#16
    let target : Word := BitVec.ofInt 16 ((next.toNat : Int) + off.toInt)
    let extra : Nat := 1 + (if target.toNat / 256 ≠ next.toNat / 256 then 1 else 0)
    ∀ c ∈ branchTable off s,
      exec c.1 s = .next (charged c.1 s (if c.2 then extra else 0)
        { s with pc := if c.2 then target else next })) ∧
  (∀ (off : Byte) (s : State), (branchTable off s).map (fun c => (c.1.opcode, baseCycles c.1.opcode)) =
    [(0x90#8, 2), (0xB0#8, 2), (0xF0#8, 2), (0xD0#8, 2), (0x30#8, 2), (0x10#8, 2), (0x50#8, 2),
     (0x70#8, 2)])

/-- PHA, PHP, PLA, PLP (R220 to R223): a push writes page one at S and then decrements S, a pull
increments S and then reads; PHP pushes bits 5 and 4 as 1, PLP ignores them; S wraps. -/
def Obligations.StackResults : Prop :=
  ∀ s : State,
    exec .pha s = .next (done .pha s { s with ram := s.ram.write (cell s.sp) s.a, sp := s.sp - 1#8 }) ∧
    exec .php s = .next (done .php s
      { s with ram := s.ram.write (cell s.sp) (image s.p true), sp := s.sp - 1#8 }) ∧
    (let b := s.ram.read (cell (s.sp + 1#8))
     exec .pla s = .next (done .pla s { s with a := b, p := zn s.p b, sp := s.sp + 1#8 }) ∧
     exec .plp s = .next (done .plp s { s with p := unimage b, sp := s.sp + 1#8 })) ∧
    [Instr.pha, .php, .pla, .plp].map (fun i => (encode i, baseCycles i.opcode)) =
      [([0x48#8], 3), ([0x08#8], 3), ([0x68#8], 4), ([0x28#8], 4)]

/-- Pushing the flags and pulling them back restores all six, and pushing A and pulling it back restores
A: for every stack pointer, whatever was in RAM, which is in its canonical form (`StepKeepsInv`). The
pushed status byte has bits 5 and 4 set. -/
def Obligations.StackRoundTrips : Prop :=
  ∀ s : State, Memory.wf 0x800 s.ram = true →
    (∃ t u, exec .php s = .next t ∧ exec .plp t = .next u ∧ u.p = s.p ∧ u.sp = s.sp ∧
      t.ram.read (cell s.sp) &&& 0x30#8 = 0x30#8) ∧
    (∃ t u, exec .pha s = .next t ∧ exec .pla { t with a := 0#8 } = .next u ∧ u.a = s.a ∧
      u.sp = s.sp ∧ u.p = zn s.p s.a)

/-- The seven flag instructions (R224 to R230): each writes one flag. -/
def Obligations.FlagInstructionResults : Prop :=
  ∀ s : State,
    exec .clc s = .next (done .clc s { s with p := { s.p with c := false } }) ∧
    exec .sec s = .next (done .sec s { s with p := { s.p with c := true } }) ∧
    exec .cli s = .next (done .cli s { s with p := { s.p with i := false } }) ∧
    exec .sei s = .next (done .sei s { s with p := { s.p with i := true } }) ∧
    exec .clv s = .next (done .clv s { s with p := { s.p with v := false } }) ∧
    exec .cld s = .next (done .cld s { s with p := { s.p with d := false } }) ∧
    exec .sed s = .next (done .sed s { s with p := { s.p with d := true } }) ∧
    [Instr.clc, .sec, .cli, .sei, .clv, .cld, .sed].map encode =
      [[0x18#8], [0x38#8], [0x58#8], [0x78#8], [0xB8#8], [0xD8#8], [0xF8#8]] ∧
    [Instr.clc, .sec, .cli, .sei, .clv, .cld, .sed].map (fun i => baseCycles i.opcode) =
      [2, 2, 2, 2, 2, 2, 2]

/-- NOP (R231) and the undefined opcodes (R240): only `PC` moves and the cost is charged; an undefined
opcode by the parameters `UNDEF_LEN` and `UNDEF_CYCLES`, which with the defaults is NOP's own effect. -/
def Obligations.NopAndUndefinedResults : Prop :=
  (∀ s : State, exec .nop s = .next (done .nop s s) ∧ encode .nop = [0xEA#8] ∧ baseCycles 0xEA#8 = 2) ∧
  (∀ (op : Byte) (s : State), exec (.und op) s = .next { s with
    pc := s.pc + BitVec.ofNat 16 s.params.undefLen
    wait := s.params.undefCycles + s.dmaExtra - 1, dmaExtra := 0 }) ∧
  (∀ (op : Byte) (s : State), s.params = Params.default → exec (.und op) s = exec .nop s)

/-- BRK and RTI (R232, R233): BRK is the interrupt entry of its kind, with the return address `PC + 2`;
RTI pulls the flags, ignoring bits 5 and 4, and then `PC`, low byte first, without adding one. -/
def Obligations.BrkRtiResults : Prop :=
  (∀ s : State,
    let lo := s.cart.cpuRead s.params.openBus 0xFFFE#16
    let hi := lo.2.cpuRead s.params.openBus 0xFFFF#16
    exec .brk s = .next (charged .brk s 0
      { s with
        ram := (pushed16 s.ram s.sp (s.pc + 2#16)).write (cell (s.sp - 2#8)) (image s.p true)
        sp := s.sp - 3#8
        p := { s.p with i := true }
        pc := BitVec.ofNat 16 (hi.1.toNat * 256 + lo.1.toNat)
        cart := hi.2 })) ∧
  (∀ s : State,
    exec .rti s = .next (charged .rti s 0
      { s with
        p := unimage (s.ram.read (cell (s.sp + 1#8)))
        pc := BitVec.ofNat 16 ((s.ram.read (cell (s.sp + 3#8))).toNat * 256 +
          (s.ram.read (cell (s.sp + 2#8))).toNat)
        sp := s.sp + 3#8 })) ∧
  [Instr.brk, .rti].map (fun i => (encode i, baseCycles i.opcode)) = [([0x00#8], 7), ([0x40#8], 6)]

/-- An interrupt entry of any kind and the RTI after it restore the flags, the stack pointer and the
registers, and continue at the interrupted instruction, or two bytes after a BRK (R233, R256, R258); RAM
is in its canonical form, as in every state a run reaches (`StepKeepsInv`). -/
def Obligations.EntryRtiRoundTrip : Prop :=
  ∀ (k : InterruptKind) (s : State), Memory.wf 0x800 s.ram = true → ∃ u, exec .rti (interrupt k s) = .next u ∧ u.p = s.p ∧
    u.sp = s.sp ∧ u.a = s.a ∧ u.x = s.x ∧ u.y = s.y ∧
    u.pc = (match k with | .nmi => s.pc | .irq => s.pc | .brk => s.pc + 2#16)

/-- `P.D` has no effect on arithmetic (R169): with D set otherwise, ADC and SBC give the same state but
for D itself. -/
def Obligations.DecimalFlagIgnored : Prop :=
  ∀ (m : AluForm) (s t : State) (d : Bool),
    (exec (.adc m) s = .next t → exec (.adc m) (withD d s) = .next (withD d t)) ∧
    (exec (.sbc m) s = .next t → exec (.sbc m) (withD d s) = .next (withD d t))

/-! ### Addressing, the stack and the bus -/

/-- The effective address of every mode as arithmetic (R123 to R130), and the page-cross bit (R136). -/
def Obligations.EffectiveAddresses : Prop :=
  ∀ (b : Byte) (w : Word) (s : State),
    let ptr := fun k : Nat => (s.ram.read ((k + 1) % 256)).toNat * 256 + (s.ram.read (k % 256)).toNat
    (effAddr (.zp b) s).toNat = b.toNat ∧
    (effAddr (.zpx b) s).toNat = (b.toNat + s.x.toNat) % 256 ∧
    (effAddr (.zpy b) s).toNat = (b.toNat + s.y.toNat) % 256 ∧
    (effAddr (.abs w) s).toNat = w.toNat ∧
    (effAddr (.abx w) s).toNat = (w.toNat + s.x.toNat) % 65536 ∧
    (effAddr (.aby w) s).toNat = (w.toNat + s.y.toNat) % 65536 ∧
    (effAddr (.izx b) s).toNat = ptr (b.toNat + s.x.toNat) ∧
    (effAddr (.izy b) s).toNat = (ptr b.toNat + s.y.toNat) % 65536 ∧
    (crossed (.zp b) s = false ∧ crossed (.zpx b) s = false ∧ crossed (.zpy b) s = false ∧
      crossed (.abs w) s = false ∧ crossed (.izx b) s = false) ∧
    (crossed (.abx w) s = true ↔ (w.toNat + s.x.toNat) % 65536 / 256 ≠ w.toNat / 256) ∧
    (crossed (.aby w) s = true ↔ (w.toNat + s.y.toNat) % 65536 / 256 ≠ w.toNat / 256) ∧
    (crossed (.izy b) s = true ↔
      (ptr b.toNat + s.y.toNat) % 65536 / 256 ≠ ptr b.toNat / 256)

/-- The stack and the page-zero pointers are ordinary bus accesses (R11, R133, R134): the operations on
RAM directly are the ones the rules write as `MemRead` and `MemWrite`. -/
def Obligations.StackAndPointersThroughBus : Prop :=
  (∀ (v : Byte) (s : State), ∃ t, memWrite (BitVec.ofNat 16 (0x100 + s.sp.toNat)) v s = .ok t ∧
    push8 v s = { t with sp := BitVec.ofNat 8 ((s.sp.toNat + 255) % 256) }) ∧
  (∀ s : State, ∃ b, memRead (BitVec.ofNat 16 (0x100 + (s.sp.toNat + 1) % 256)) s = .ok (b, s) ∧
    pull8 s = (b, { s with sp := BitVec.ofNat 8 ((s.sp.toNat + 1) % 256) })) ∧
  (∀ (p : Byte) (s : State), ∃ l h, memRead (BitVec.ofNat 16 p.toNat) s = .ok (l, s) ∧
    memRead (BitVec.ofNat 16 ((p.toNat + 1) % 256)) s = .ok (h, s) ∧
    (zpRead16 p s).toNat = h.toNat * 256 + l.toNat) ∧
  (∀ (w : Word) (s : State),
    push16 w s = push8 (low w) (push8 (high w) s) ∧
    (pull16 s).1.toNat = (pull8 (pull8 s).2).1.toNat * 256 + (pull8 s).1.toNat ∧
    (pull16 s).2 = (pull8 (pull8 s).2).2)

/-- The RAM window and its mirrors (R61): a write through one image is read through all four, and no
other cell changes; no side effect. RAM is in its canonical form, as in every state a run reaches
(`StepKeepsInv`). -/
def Obligations.RamMirrors : Prop :=
  ∀ (a : Word) (v : Byte) (s : State), Memory.wf 0x800 s.ram = true → a.toNat < 0x2000 →
    memRead a s = .ok (s.ram.read (a.toNat % 2048), s) ∧
    ∃ t, memWrite a v s = .ok t ∧ t = { s with ram := t.ram } ∧
      ∀ b : Word, b.toNat < 0x2000 →
        memRead b t = .ok (if b.toNat % 2048 = a.toNat % 2048 then v else s.ram.read (b.toNat % 2048), t)

/-- The register windows (R62, R63, R68): a PPU address is its register modulo 8, on reads and on writes;
a write-only register reads as `OPEN_BUS`, a read-only one ignores writes, the sound registers hold
nothing; from $4018 on the cartridge answers. -/
def Obligations.RegisterWindows : Prop :=
  ∀ (a : Word) (v : Byte) (s : State),
    (0x2000 ≤ a.toNat → a.toNat < 0x4000 →
      memRead a s = memRead (BitVec.ofNat 16 (0x2000 + a.toNat % 8)) s ∧
      memWrite a v s = memWrite (BitVec.ofNat 16 (0x2000 + a.toNat % 8)) v s) ∧
    (a ∈ [0x2000#16, 0x2001#16, 0x2003#16, 0x2005#16, 0x2006#16] →
      memRead a s = .ok (s.params.openBus, s)) ∧
    memWrite 0x2002#16 v s = .ok s ∧
    (0x4000 ≤ a.toNat → a.toNat ≤ 0x4014 → memRead a s = .ok (s.params.openBus, s)) ∧
    (0x4000 ≤ a.toNat → a.toNat ≤ 0x4013 → memWrite a v s = .ok s) ∧
    memWrite 0x4015#16 v s = .ok s ∧
    (0x4018 ≤ a.toNat →
      memRead a s = .ok ((s.cart.cpuRead s.params.openBus a).1,
        { s with cart := (s.cart.cpuRead s.params.openBus a).2 }) ∧
      memWrite a v s = .ok { s with cart := s.cart.cpuWrite a v })

/-- The no-bank-switch cartridge (R82): the PRG bank from $8000 on, twice when it has 16 KB; nothing
below; writes to it do nothing; CHR by its 8 KB, written only if it is RAM; the header's mirroring; no
interrupt. -/
def Obligations.NromCartridge : Prop :=
  ∀ (c : Cart) (ob v : Byte) (a : Word) (q : BitVec 14), c.variant = .nrom →
    (0x8000 ≤ a.toNat → c.cpuRead ob a = (c.prg.read ((a.toNat - 0x8000) % c.prgSize), c)) ∧
    (a.toNat < 0x8000 → c.cpuRead ob a = (ob, c)) ∧
    c.cpuWrite a v = c ∧
    c.chrRead q = c.chr.read q.toNat ∧
    c.chrWrite q v = (if c.chrRam then { c with chr := c.chr.write q.toNat v } else c) ∧
    c.notifyScanline = c ∧ c.mirror = c.mirroring ∧ c.irq = false

/-! ### Frames -/

/-- The flags (R26): an instruction changes a flag only if the table of R26 lists it for that flag, and
of the others BRK's setting of `P.I` is what the table says. -/
def Obligations.FlagsWrittenOnlyByTable : Prop :=
  ∀ (i : Instr) (s t : State), exec i s = .next t →
    (mnemonic i ∉ writesC → t.p.c = s.p.c) ∧
    (mnemonic i ∉ writesZN → t.p.z = s.p.z ∧ t.p.n = s.p.n) ∧
    (mnemonic i ∉ ["SEI", "CLI", "PLP", "RTI", "BRK"] → t.p.i = s.p.i) ∧
    (mnemonic i ∉ ["SED", "CLD", "PLP", "RTI"] → t.p.d = s.p.d) ∧
    (mnemonic i ∉ ["ADC", "SBC", "BIT", "CLV", "PLP", "RTI"] → t.p.v = s.p.v) ∧
    (mnemonic i = "BRK" → t.p.i = true)

/-- The registers (R21, R22, R23): A, X, Y and S change only by the instructions the rules list, A by a
shift or rotate only in the accumulator form; and every instruction but the control transfers and the
undefined opcodes leaves `PC` at the next instruction (R14, R24). -/
def Obligations.RegistersWrittenOnlyByTable : Prop :=
  ∀ (i : Instr) (s t : State), exec i s = .next t →
    (mnemonic i ∉ writesA → t.a = s.a) ∧
    (mnemonic i ∈ ["ASL", "LSR", "ROL", "ROR"] → (memMode i).isSome = true → t.a = s.a) ∧
    (mnemonic i ∉ ["LDX", "TAX", "TSX", "INX", "DEX"] → t.x = s.x) ∧
    (mnemonic i ∉ ["LDY", "TAY", "INY", "DEY"] → t.y = s.y) ∧
    (mnemonic i ∉ writesS → t.sp = s.sp) ∧
    (mnemonic i ∉ transfers → mnemonic i ≠ "UND" → t.pc = s.pc + BitVec.ofNat 16 i.length)

/-- What no instruction touches: the NMI latch, the cycle counter, the raster position and the PPU's
status flags but for what a read of $2002 clears, the frame buffer, the buttons, the parameters and the
cartridge's constants (R20, R28, R29, R36, R37); and `dma_extra` is 0 afterwards (R29). -/
def Obligations.HiddenStateFrame : Prop :=
  ∀ (i : Instr) (s t : State), exec i s = .next t →
    t.nmiPending = s.nmiPending ∧ t.cyc = s.cyc ∧ t.dmaExtra = 0 ∧
    t.ppu.scanline = s.ppu.scanline ∧ t.ppu.dot = s.ppu.dot ∧ t.ppu.odd = s.ppu.odd ∧
    t.ppu.spr0 = s.ppu.spr0 ∧ t.ppu.sprovf = s.ppu.sprovf ∧
    (t.ppu.vblank = true → s.ppu.vblank = true) ∧
    t.frameBuf = s.frameBuf ∧ t.frameComplete = s.frameComplete ∧
    t.pads.pad0 = s.pads.pad0 ∧ t.pads.pad1 = s.pads.pad1 ∧ SameRom s t

/-- The frame of every instruction that stores nothing: every byte of RAM, of video RAM, of the palette,
of OAM and of CHR storage is as before, every plain address reads as before, and no PPU or APU control
register changes. -/
def Obligations.NonStoringKeepMemory : Prop :=
  ∀ (i : Instr) (s t : State), storesNothing i = true → exec i s = .next t →
    t.ram = s.ram ∧ t.ppu.vram = s.ppu.vram ∧ t.ppu.pal = s.ppu.pal ∧ t.ppu.oam = s.ppu.oam ∧
    t.cart.chr = s.cart.chr ∧ (s.Nrom → ∀ a : Word, plainAddr a → peek t a = peek s a) ∧
    t.ppu.ctrl = s.ppu.ctrl ∧ t.ppu.mask = s.ppu.mask ∧ t.ppu.t = s.ppu.t ∧ t.ppu.x = s.ppu.x ∧
    t.ppu.oamaddr = s.ppu.oamaddr ∧ t.apu.mode = s.apu.mode ∧ t.apu.inhibit = s.apu.inhibit ∧
    t.apu.fc = s.apu.fc ∧ t.pads.strobe = s.pads.strobe

/-- The frame of the stores and of the read-modify-write memory forms. The address stored to is
`effAddr m s`, which the meaning uses, in the state before the instruction. Every plain address of
another RAM cell reads as before; a store to RAM leaves the devices, and where RAM is in its canonical
form (`StepKeepsInv`) the stored register is read back there;
the PPU's own memories change only through $2007, $2004 and $4014. -/
def Obligations.StoreFrame : Prop :=
  ∀ (i : Instr) (m : MemMode) (s t : State), storeMode i = some m → exec i s = .next t →
    let ea := effAddr m s
    (∀ c : Nat, ramCell ea ≠ some c → t.ram.read c = s.ram.read c) ∧
    (s.Nrom → ∀ a : Word, plainAddr a → (ramCell a = none ∨ ramCell a ≠ ramCell ea) →
      peek t a = peek s a) ∧
    (∀ c, ramCell ea = some c → SameDevices s t) ∧
    (∀ c, ramCell ea = some c → Memory.wf 0x800 s.ram = true →
      (mnemonic i = "STA" → t.ram.read c = s.a) ∧ (mnemonic i = "STX" → t.ram.read c = s.x) ∧
      (mnemonic i = "STY" → t.ram.read c = s.y)) ∧
    (¬ (0x2000 ≤ ea.toNat ∧ ea.toNat < 0x4000 ∧ ea.toNat % 8 = 7) →
      t.ppu.vram = s.ppu.vram ∧ t.ppu.pal = s.ppu.pal ∧ t.cart.chr = s.cart.chr) ∧
    (¬ (0x2000 ≤ ea.toNat ∧ ea.toNat < 0x4000 ∧ ea.toNat % 8 = 4) → ea ≠ 0x4014#16 →
      t.ppu.oam = s.ppu.oam)

/-- The frame of the pushes, PHA, PHP, JSR and BRK: only the one, two or three cells below the stack
pointer change, and no device but what reading BRK's vector does to the cartridge. -/
def Obligations.PushFrame : Prop :=
  ∀ (i : Instr) (s t : State) (cells : List Nat),
    (mnemonic i, cells) ∈ [("PHA", [cell s.sp]), ("PHP", [cell s.sp]),
      ("JSR", [cell s.sp, cell (s.sp - 1#8)]),
      ("BRK", [cell s.sp, cell (s.sp - 1#8), cell (s.sp - 2#8)])] →
    exec i s = .next t →
    (∀ c : Nat, c ∉ cells → t.ram.read c = s.ram.read c) ∧
    t.ppu = s.ppu ∧ t.apu = s.apu ∧ t.pads = s.pads ∧ (mnemonic i ≠ "BRK" → t.cart = s.cart) ∧
    (s.Nrom → ∀ a : Word, plainAddr a → (∀ c, ramCell a = some c → c ∉ cells) → peek t a = peek s a)

/-! ### Devices -/

/-- A read of $2002 (R273): the three flags in bits 7 to 5, `OPEN_BUS` below; it clears the vertical
blank flag and the write toggle and nothing else; a write of it does nothing. -/
def Obligations.PpuStatusRead : Prop :=
  ∀ (v : Byte) (s : State), memWrite 0x2002#16 v s = .ok s ∧ ∃ r,
    memRead 0x2002#16 s = .ok (r, { s with ppu := { s.ppu with vblank := false, w := false } }) ∧
    r.toNat = 128 * s.ppu.vblank.toNat + 64 * s.ppu.spr0.toNat + 32 * s.ppu.sprovf.toNat +
      s.params.openBus.toNat % 32

/-- Writes of $2000, $2001, $2003, $2005 and $2006 (R271, R272, R274, R276, R277), bit by bit: what goes
to `ppu.t`, `ppu.v`, `ppu.x` and the shared toggle. -/
def Obligations.PpuPortWrites : Prop :=
  ∀ (v : Byte) (s : State),
    (∃ t', memWrite 0x2000#16 v s = .ok { s with ppu := { s.ppu with ctrl := v, t := t' } } ∧
      ∀ k < 15, t'.getLsbD k =
        if k = 10 then v.getLsbD 0 else if k = 11 then v.getLsbD 1 else s.ppu.t.getLsbD k) ∧
    memWrite 0x2001#16 v s = .ok { s with ppu := { s.ppu with mask := v } } ∧
    memWrite 0x2003#16 v s = .ok { s with ppu := { s.ppu with oamaddr := v } } ∧
    (s.ppu.w = false → ∃ t' x', memWrite 0x2005#16 v s =
        .ok { s with ppu := { s.ppu with t := t', x := x', w := true } } ∧
      x'.toNat = v.toNat % 8 ∧
      ∀ k < 15, t'.getLsbD k = if k < 5 then v.getLsbD (k + 3) else s.ppu.t.getLsbD k) ∧
    (s.ppu.w = true → ∃ t', memWrite 0x2005#16 v s =
        .ok { s with ppu := { s.ppu with t := t', w := false } } ∧
      ∀ k < 15, t'.getLsbD k =
        if 12 ≤ k then v.getLsbD (k - 12)
        else if 5 ≤ k ∧ k < 10 then v.getLsbD (k - 2) else s.ppu.t.getLsbD k) ∧
    (s.ppu.w = false → ∃ t', memWrite 0x2006#16 v s =
        .ok { s with ppu := { s.ppu with t := t', w := true } } ∧
      ∀ k < 15, t'.getLsbD k =
        if k = 14 then false else if 8 ≤ k then v.getLsbD (k - 8) else s.ppu.t.getLsbD k) ∧
    (s.ppu.w = true → ∃ t', memWrite 0x2006#16 v s =
        .ok { s with ppu := { s.ppu with t := t', v := t', w := false } } ∧
      ∀ k < 15, t'.getLsbD k = if k < 8 then v.getLsbD k else s.ppu.t.getLsbD k)

/-- $2007 (R278): outside rendering a read below the palette answers the buffer and refills it, a palette
read answers at once and fills the buffer from below; both and a write advance `ppu.v` by 1 or 32; while
rendering both are refused. -/
def Obligations.PpuDataPort : Prop :=
  ∀ (v : Byte) (s : State),
    let a : BitVec 14 := BitVec.ofNat 14 (s.ppu.v.toNat % 16384)
    let v' : BitVec 15 :=
      BitVec.ofNat 15 ((s.ppu.v.toNat + if s.ppu.ctrl.getLsbD 2 then 32 else 1) % 32768)
    (s.ppu.rendering = false → a.toNat < 0x3F00 → memRead 0x2007#16 s =
      .ok (s.ppu.rdbuf, { s with ppu := { s.ppu with rdbuf := ppuRead s.ppu s.cart a, v := v' } })) ∧
    (s.ppu.rendering = false → 0x3F00 ≤ a.toNat → memRead 0x2007#16 s =
      .ok (ppuRead s.ppu s.cart a,
        { s with ppu := { s.ppu with
            rdbuf := ppuRead s.ppu s.cart (BitVec.ofNat 14 (a.toNat - 0x1000)), v := v' } })) ∧
    (s.ppu.rendering = false → memWrite 0x2007#16 v s =
      .ok { s with ppu := { (ppuWrite s.ppu s.cart a v).1 with v := v' }
                   cart := (ppuWrite s.ppu s.cart a v).2 }) ∧
    (s.ppu.rendering = true → memRead 0x2007#16 s = .error .ppuDataWhileRendering ∧
      memWrite 0x2007#16 v s = .error .ppuDataWhileRendering)

/-- The PPU's address space (R76): after a write every address of the same cell, through every mirror,
reads the value (six bits of it in the palette, the old one in CHR-ROM), and every other address reads as
before. The cells are the ones of R76, written as arithmetic in `ppuCell`; the memories are in their
canonical form, as in every state a run reaches (`StepKeepsInv`). -/
def Obligations.PpuAddressSpace : Prop :=
  ∀ (p : Ppu) (c : Cart) (a b : BitVec 14) (v : Byte), c.variant = .nrom →
    p.wf = true → c.wf = true →
    let w := ppuWrite p c a v
    ppuRead w.1 w.2 b =
      if ppuCell c.mirroring a.toNat = ppuCell c.mirroring b.toNat then
        (if a.toNat < 0x2000 then (if c.chrRam then v else ppuRead p c b)
         else if a.toNat < 0x3F00 then v else BitVec.ofNat 8 (v.toNat % 64))
      else ppuRead p c b

/-- OAM (R275, R296): the port at $2004, and the DMA: the loop of R296 over ordinary bus reads, which on a
page without side effects copies the page to OAM (in its canonical form, `StepKeepsInv`) starting at
`ppu.oamaddr`, wrapping, and stalls for 513 cycles, one more when `cyc` is odd. The last clause is the stall
in the cost of the storing instruction, here STA absolute with its base of 4: `wait` is that cost less the
cycle that executes. -/
def Obligations.OamPortAndDma : Prop :=
  (∀ (v : Byte) (s : State),
    memWrite 0x2004#16 v s = .ok { s with ppu := { s.ppu with
      oam := s.ppu.oam.write s.ppu.oamaddr.toNat v,
      oamaddr := BitVec.ofNat 8 ((s.ppu.oamaddr.toNat + 1) % 256) } } ∧
    memRead 0x2004#16 s = .ok (s.ppu.oam.read s.ppu.oamaddr.toNat, s) ∧
    memWrite 0x4014#16 v s = dmaLoop v s) ∧
  (∀ (v : Byte) (s : State), s.Nrom → Memory.wf 256 s.ppu.oam = true →
    (v.toNat < 0x20 ∨ 0x41 ≤ v.toNat) →
    ∃ oam, memWrite 0x4014#16 v s =
        .ok { s with ppu := { s.ppu with oam := oam }, dmaExtra := 513 + s.cyc % 2 } ∧
      ∀ i < 256, some (oam.read ((s.ppu.oamaddr.toNat + i) % 256)) =
        peek s (BitVec.ofNat 16 (v.toNat * 256 + i))) ∧
  (∀ s t : State, memWrite 0x4014#16 s.a s = .ok t → t.ppu.oamaddr = s.ppu.oamaddr ∧
    exec (.sta (.abs 0x4014#16)) s = .next { t with
      pc := s.pc + 3#16, wait := 4 + (513 + s.cyc % 2) - 1, dmaExtra := 0 })

/-- The controller ports (R297, R298, R299): while the strobe is 1 a read answers button A; after a write
of 1 and one of 0, eight reads of $4016 answer the buttons of pad 0 from bit 0 up, and of $4017 those of
pad 1; further reads answer 1. -/
def Obligations.ControllerProtocol : Prop :=
  (∀ (v1 v0 : Byte) (s : State), v1.getLsbD 0 = true → v0.getLsbD 0 = false →
    ∃ s1 s2, memWrite 0x4016#16 v1 s = .ok s1 ∧ memWrite 0x4016#16 v0 s1 = .ok s2 ∧
      (∀ n : Nat, memRead 0x4016#16 (reads4016 n s1) =
        .ok (if s.pads.pad0.getLsbD 0 then 1#8 else 0#8, reads4016 (n + 1) s1)) ∧
      (∀ n : Nat, memRead 0x4016#16 (reads4016 n s2) =
        .ok (if 8 ≤ n ∨ s.pads.pad0.getLsbD n = true then 1#8 else 0#8, reads4016 (n + 1) s2)) ∧
      (∀ n : Nat, memRead 0x4017#16 (reads4017 n s1) =
        .ok (if s.pads.pad1.getLsbD 0 then 1#8 else 0#8, reads4017 (n + 1) s1)) ∧
      (∀ n : Nat, memRead 0x4017#16 (reads4017 n s2) =
        .ok (if 8 ≤ n ∨ s.pads.pad1.getLsbD n = true then 1#8 else 0#8, reads4017 (n + 1) s2))) ∧
  (∀ (n : Nat) (s : State), reads4016 n s = { s with pads := { s.pads with
      shift0 := (reads4016 n s).pads.shift0 } } ∧
    reads4017 n s = { s with pads := { s.pads with shift1 := (reads4017 n s).pads.shift1 } })

/-- The APU's registers and its tick (R290, R291, R292). -/
def Obligations.ApuRegisters : Prop :=
  ∀ (v : Byte) (s : State),
    memWrite 0x4017#16 v s = .ok { s with apu :=
      { mode := decide (128 ≤ v.toNat), inhibit := decide (v.toNat / 64 % 2 = 1),
        frameIrq := s.apu.frameIrq && !decide (v.toNat / 64 % 2 = 1), fc := 0 } } ∧
    memRead 0x4015#16 s = .ok (if s.apu.frameIrq then 64#8 else 0#8,
      { s with apu := { s.apu with frameIrq := false } }) ∧
    memWrite 0x4015#16 v s = .ok s ∧
    (s.apu.mode = false → s.apu.tick = { s.apu with
      frameIrq := s.apu.frameIrq || (decide (s.apu.fc + 1 = 29829) && !s.apu.inhibit)
      fc := if s.apu.fc + 1 = 29830 then 0 else s.apu.fc + 1 }) ∧
    (s.apu.mode = true → s.apu.tick = { s.apu with
      fc := if s.apu.fc + 1 = 37282 then 0 else s.apu.fc + 1 })

/-- The frame sequencer over any number of ticks from a restart (R292): the four-step period is 29,830
and the flag rises at tick 29,829 unless inhibited; the five-step period is 37,282 and the flag never
rises. -/
def Obligations.ApuFramePeriod : Prop :=
  ∀ (u : Apu) (k : Nat), u.fc = 0 →
    (u.mode = false →
      (Apu.tick^[k] u).fc = k % 29830 ∧
      (Apu.tick^[k] u).frameIrq = (u.frameIrq || (decide (29829 ≤ k) && !u.inhibit))) ∧
    (u.mode = true → (Apu.tick^[k] u).fc = k % 37282 ∧ (Apu.tick^[k] u).frameIrq = u.frameIrq)

/-- The raster (R280, R281): from scanline 0, dot 0 the k-th tick acts at scanline k / 341, dot k mod 341,
whatever the program has written to the PPU, and the frame ends, at once and not before, after 89,342
ticks if it is even and 89,341 if it is odd, with the parity changed. -/
def Obligations.FrameLength : Prop :=
  ∀ s : State, s.ppu.scanline = 0 → s.ppu.dot = 0 →
    let len := if s.ppu.odd then 89341 else 89342
    (∀ k < len,
      (ppuTick^[k] s).ppu.scanline = k / 341 ∧ (ppuTick^[k] s).ppu.dot = k % 341 ∧
      (ppuTick^[k] s).ppu.odd = s.ppu.odd ∧ (ppuTick^[k] s).frameComplete = s.frameComplete) ∧
    (ppuTick^[len] s).ppu.scanline = 0 ∧ (ppuTick^[len] s).ppu.dot = 0 ∧
    (ppuTick^[len] s).ppu.odd = !s.ppu.odd ∧ (ppuTick^[len] s).frameComplete = true

/-- `StepFrame` (R301, R354): unless the program is refused for touching $2007 while rendering, a frame
completes: after 29,781 CPU cycles from the start of an even frame, leaving one surplus dot; after 29,780
from there in the odd frame; and from any raster position within 29,781. -/
def Obligations.FrameCycleCounts : Prop :=
  (∀ (c0 c1 : Byte) (s : State), s.ppu.scanline = 0 → s.ppu.dot = 0 → s.ppu.odd = false →
    stepFrame c0 c1 s = .refused .ppuDataWhileRendering ∨
    ∃ t, stepFrame c0 c1 s = .next t ∧ t.frameComplete = true ∧ t.cyc = s.cyc + 29781 ∧
      t.ppu.scanline = 0 ∧ t.ppu.dot = 1 ∧ t.ppu.odd = true ∧ t.pads.pad0 = c0 ∧ t.pads.pad1 = c1) ∧
  (∀ (c0 c1 : Byte) (s : State), s.ppu.scanline = 0 → s.ppu.dot = 1 → s.ppu.odd = true →
    stepFrame c0 c1 s = .refused .ppuDataWhileRendering ∨
    ∃ t, stepFrame c0 c1 s = .next t ∧ t.frameComplete = true ∧ t.cyc = s.cyc + 29780 ∧
      t.ppu.scanline = 0 ∧ t.ppu.dot = 0 ∧ t.ppu.odd = false) ∧
  (∀ (c0 c1 : Byte) (s : State), s.ppu.rasterOk = true →
    stepFrame c0 c1 s = .refused .ppuDataWhileRendering ∨
    ∃ t, stepFrame c0 c1 s = .next t ∧ t.frameComplete = true ∧ t.cyc ≤ s.cyc + 29781)

/-- The vertical blank and the pre-render clear (R282, R283): a step sets the NMI latch only at scanline
241, with bit 7 of PPUCTRL set, and a step whose ticks pass dot 1 of scanline 241 does set the vertical
blank flag, and the latch if that bit is set; one whose ticks pass dot 1 of scanline 261 clears the three
flags. -/
def Obligations.VblankAndPreRender : Prop :=
  ∀ s t : State, step s = .next t →
    (s.nmiPending = false → t.nmiPending = true →
      t.ppu.ctrl.getLsbD 7 = true ∧ t.ppu.scanline = 241 ∧ 2 ≤ t.ppu.dot ∧ t.ppu.dot ≤ 4) ∧
    (t.ppu.scanline = 241 → 2 ≤ t.ppu.dot → t.ppu.dot ≤ 4 →
      t.ppu.vblank = true ∧ (t.ppu.ctrl.getLsbD 7 = true → t.nmiPending = true)) ∧
    (t.ppu.scanline = 261 → 2 ≤ t.ppu.dot → t.ppu.dot ≤ 4 →
      t.ppu.vblank = false ∧ t.ppu.spr0 = false ∧ t.ppu.sprovf = false)

/-! ### Invariants, reset and the host -/

/-- The state after reset meets the invariant, with any legal parameters and any cartridge in form. -/
def Obligations.InvAtReset : Prop :=
  State.reset.Inv ∧
    ∀ (params : Params) (c : Cart), params.wf = true → c.wf = true → (State.resetWith params c).Inv

/-- Every step keeps the invariant: all storage in canonical form and of its size, palette entries of six
bits, the raster position and the sequencer in range (R280, R292), `dma_extra` 0 between boundary
actions (R29). -/
def Obligations.StepKeepsInv : Prop :=
  ∀ s t : State, s.Inv → step s = .next t → t.Inv

/-- No step changes what is constant in a run: the ROM contents and the rest of the cartridge's constants,
the parameters, the buttons; the cycle counter counts every step (R29, R36, R302). -/
def Obligations.StepKeepsConstants : Prop :=
  ∀ s t : State, step s = .next t → SameRom s t ∧ t.pads.pad0 = s.pads.pad0 ∧
    t.pads.pad1 = s.pads.pad1 ∧ t.cyc = s.cyc + 1

/-- `Reset()` (R38, R330): every element has the value of the table of R38, `PC` comes from $FFFC through
the cartridge, and nothing of the old state survives but the parameters and the cartridge's constants. -/
def Obligations.ResetValues : Prop :=
  (∀ s : State, s.Nrom →
    let t := hostReset s
    t.a = 0#8 ∧ t.x = 0#8 ∧ t.y = 0#8 ∧ t.sp = 0xFD#8 ∧
    t.p = { c := false, z := false, i := true, d := false, v := false, n := false } ∧
    peek t 0xFFFC#16 = some (low t.pc) ∧ peek t 0xFFFD#16 = some (high t.pc) ∧
    t.nmiPending = false ∧ t.irqPending = false ∧ t.wait = s.params.resetWait ∧ t.cyc = 0 ∧
    t.dmaExtra = 0 ∧ (∀ k, t.ram.read k = 0#8) ∧
    t.ppu.ctrl = 0#8 ∧ t.ppu.mask = 0#8 ∧ t.ppu.oamaddr = 0#8 ∧ t.ppu.rdbuf = 0#8 ∧
    t.ppu.t = 0#15 ∧ t.ppu.v = 0#15 ∧ t.ppu.x = 0#3 ∧ t.ppu.w = false ∧ t.ppu.vblank = false ∧
    t.ppu.spr0 = false ∧ t.ppu.sprovf = false ∧ t.ppu.scanline = 0 ∧ t.ppu.dot = 0 ∧
    t.ppu.odd = false ∧
    (∀ k, t.ppu.vram.read k = 0#8 ∧ t.ppu.pal.read k = 0#8 ∧ t.ppu.oam.read k = 0#8 ∧
      Cells.read t.frameBuf k = 0#24) ∧
    t.apu = { mode := false, inhibit := false, frameIrq := false, fc := 0 } ∧
    t.pads = { pad0 := 0#8, pad1 := 0#8, shift0 := 0#8, shift1 := 0#8, strobe := false } ∧
    (s.cart.chrRam = true → ∀ k, t.cart.chr.read k = 0#8) ∧ t.frameComplete = false ∧ SameRom s t) ∧
  (∀ s t : State, SameRom s t → hostReset t = hostReset s)

/-- Loading an iNES image (R83): what is refused, and with which error, and what an accepted image of
mapper 0 gives: the bytes of its banks after the trainer, its mirroring, CHR-RAM when it has no CHR bank.
Nothing is built on a refusal. That an image which ends inside its header is a format error, even with the
right magic, is the model's choice and no sentence of R83 (log 8), and so is which error an image with a
wrong magic and another fault gets. -/
def Obligations.ImageLoading : Prop :=
  (∀ image : List Byte, image.length < 16 → loadImage image = .error .formatError) ∧
  (∀ image : List Byte, image.take 4 ≠ [0x4E#8, 0x45#8, 0x53#8, 0x1A#8] →
    loadImage image = .error .formatError) ∧
  (∀ (np nc f6 f7 : Byte) (ignored body : List Byte), ignored.length = 8 →
    let image := [0x4E#8, 0x45#8, 0x53#8, 0x1A#8, np, nc, f6, f7] ++ ignored ++ body
    let trainer := if f6.getLsbD 2 then 512 else 0
    let mapper := f7.toNat / 16 * 16 + f6.toNat / 16
    let sized := body.length = trainer + np.toNat * 16384 + nc.toNat * 8192
    (¬ sized → ∃ e, loadImage image = .error e) ∧
    (sized → mapper ≠ 0 → loadImage image = .error (.unsupportedMapper mapper)) ∧
    (mapper = 0 → ¬ sized ∨ np.toNat = 0 ∨ 2 < np.toNat ∨ 1 < nc.toNat ∨ f6.getLsbD 3 = true →
      loadImage image = .error .formatError) ∧
    (sized → mapper = 0 → np.toNat = 1 ∨ np.toNat = 2 → nc.toNat ≤ 1 → f6.getLsbD 3 = false →
      ∃ c, loadImage image = .ok c ∧ c.variant = .nrom ∧ c.prgSize = np.toNat * 16384 ∧
        (∀ k < np.toNat * 16384, some (c.prg.read k) = body[trainer + k]?) ∧
        c.chrRam = decide (nc.toNat = 0) ∧
        (∀ k < nc.toNat * 8192, some (c.chr.read k) = body[trainer + np.toNat * 16384 + k]?) ∧
        c.mirroring = (if f6.getLsbD 0 then .vertical else .horizontal) ∧ c.wf = true))

/-- The host's debug access (R302): it is the bus access of a CPU, side effects and refusal included, it
takes no cycle, and the stall of a DMA it starts goes to `wait`; a RAM cell written is read back. Saving
and loading (R303): loading what was saved, on a console with the same cartridge, restores the whole state;
a wrong version or a truncated blob is refused and nothing is loaded. The version number, the two names of
R303's one StateError, and that a truncated blob of another version gets the name of the wrong version are
the model's choice (log 9). -/
def Obligations.HostAccessSaveAndLoad : Prop :=
  (∀ (a : Word) (b : Byte) (s t : State), memRead a s = .ok (b, t) →
    hostRead a s = .ok (b, { t with wait := s.wait + s.dmaExtra, dmaExtra := 0 }) ∧ t.cyc = s.cyc) ∧
  (∀ (a : Word) (v : Byte) (s t : State), memWrite a v s = .ok t →
    hostWrite a v s = .ok { t with wait := s.wait + t.dmaExtra, dmaExtra := 0 } ∧ t.cyc = s.cyc) ∧
  (∀ (a : Word) (v : Byte) (s : State) (r : Refusal),
    (memRead a s = .error r → hostRead a s = .error r) ∧
    (memWrite a v s = .error r → hostWrite a v s = .error r)) ∧
  (∀ (v : Byte) (s t : State), hostWrite 0x4014#16 v s = .ok t →
    t.wait = s.wait + 513 + s.cyc % 2 ∧ t.dmaExtra = 0 ∧ t.cyc = s.cyc ∧ t.pc = s.pc) ∧
  (∀ (a : Word) (v : Byte) (s : State), s.Inv → a.toNat < 0x2000 →
    ∃ t, hostWrite a v s = .ok t ∧ hostRead a t = .ok (v, t) ∧ t = { s with ram := t.ram }) ∧
  (∀ s t : State, SameRom s t → loadState (saveState s) t = .ok s) ∧
  (∀ (b : SavedState) (s : State), b.version ≠ saveVersion → loadState b s = .error .versionMismatch) ∧
  (∀ s : State, loadState { version := saveVersion, payload := none } s = .error .truncated)
end

