-- ==== Sys2Proof/Laws/Cells.lean ====
section
/-! SUPPORT. The laws of storage arrays: a read after a write, and that every operation keeps the
canonical form. -/

namespace Sys2Proof.Machine

variable {w : Nat}

theorem Cells.read_eq_zero_of_lt {hi lo : Nat} {m : Cells w} {a : Nat}
    (h : Cells.wfFrom hi lo m = true) (ha : a < lo) : Cells.read m a = 0#w := by
  induction m generalizing lo with
  | nil => rfl
  | cons e rest ih =>
    obtain ⟨k, b⟩ := e
    simp only [Cells.wfFrom, Bool.and_eq_true, decide_eq_true_eq] at h
    simp only [Cells.read]
    rw [if_neg (by omega)]
    exact ih h.2 (by omega)

theorem Cells.wfFrom_mono {hi lo lo' : Nat} {m : Cells w} (h : Cells.wfFrom hi lo m = true)
    (hl : lo' ≤ lo) : Cells.wfFrom hi lo' m = true := by
  cases m with
  | nil => rfl
  | cons e rest =>
    obtain ⟨k, b⟩ := e
    simp only [Cells.wfFrom, Bool.and_eq_true, decide_eq_true_eq] at h ⊢
    exact ⟨⟨⟨by omega, h.1.1.2⟩, h.1.2⟩, h.2⟩

/-- A read of the cell just written gives the value written. -/
theorem Cells.read_write_same {hi lo : Nat} {m : Cells w} (h : Cells.wfFrom hi lo m = true)
    (a : Nat) (v : BitVec w) : Cells.read (Cells.write m a v) a = v := by
  induction m generalizing lo with
  | nil =>
    by_cases hv : v = 0#w <;> simp [Cells.write, Cells.read, hv]
  | cons e rest ih =>
    obtain ⟨k, b⟩ := e
    simp only [Cells.wfFrom, Bool.and_eq_true, decide_eq_true_eq] at h
    have gone : a < k + 1 → Cells.read rest a = 0#w := Cells.read_eq_zero_of_lt h.2
    by_cases h1 : a < k
    · by_cases hv : v = 0#w
      · simp [Cells.write, h1, hv, Cells.read, show k ≠ a by omega, gone (by omega)]
      · simp [Cells.write, h1, hv, Cells.read]
    · by_cases h2 : a = k
      · subst h2
        by_cases hv : v = 0#w
        · simp [Cells.write, hv, gone (by omega)]
        · simp [Cells.write, hv, Cells.read]
      · simp [Cells.write, h1, h2, Cells.read, show k ≠ a by omega, ih h.2]

/-- A write leaves every other cell alone; this needs no canonical form. -/
theorem Cells.read_write_other (m : Cells w) (a c : Nat) (v : BitVec w) (hc : c ≠ a) :
    Cells.read (Cells.write m a v) c = Cells.read m c := by
  induction m with
  | nil =>
    by_cases hv : v = 0#w <;> simp [Cells.write, Cells.read, hv, hc.symm]
  | cons e rest ih =>
    obtain ⟨k, b⟩ := e
    by_cases h1 : a < k
    · by_cases hv : v = 0#w <;> simp [Cells.write, h1, hv, Cells.read, hc.symm]
    · by_cases h2 : a = k
      · subst h2
        by_cases hv : v = 0#w <;> simp [Cells.write, hv, Cells.read, hc.symm]
      · simp [Cells.write, h1, h2, Cells.read, ih]

theorem Cells.wfFrom_write {hi lo : Nat} {m : Cells w} (h : Cells.wfFrom hi lo m = true)
    {a : Nat} (hlo : lo ≤ a) (hhi : a < hi) (v : BitVec w) :
    Cells.wfFrom hi lo (Cells.write m a v) = true := by
  induction m generalizing lo with
  | nil =>
    by_cases hv : v = 0#w <;> simp [Cells.write, Cells.wfFrom, hv, hlo, hhi]
  | cons e rest ih =>
    obtain ⟨k, b⟩ := e
    have h' := h
    simp only [Cells.wfFrom, Bool.and_eq_true, decide_eq_true_eq] at h
    by_cases h1 : a < k
    · by_cases hv : v = 0#w
      · simpa [Cells.write, h1, hv] using h'
      · simp only [Cells.write, h1, hv, if_true, if_false, Cells.wfFrom, Bool.and_eq_true,
          decide_eq_true_eq]
        exact ⟨⟨⟨hlo, hhi⟩, hv⟩, ⟨⟨by omega, h.1.1.2⟩, h.1.2⟩, h.2⟩
    · by_cases h2 : a = k
      · subst h2
        by_cases hv : v = 0#w
        · simp only [Cells.write, hv, lt_irrefl, if_true, if_false]
          exact Cells.wfFrom_mono h.2 (by omega)
        · simp only [Cells.write, hv, lt_irrefl, if_true, if_false, Cells.wfFrom,
            Bool.and_eq_true, decide_eq_true_eq]
          exact ⟨⟨⟨hlo, hhi⟩, hv⟩, h.2⟩
      · simp only [Cells.write, h1, h2, if_false, Cells.wfFrom, Bool.and_eq_true,
          decide_eq_true_eq]
        exact ⟨⟨⟨h.1.1.1, h.1.1.2⟩, h.1.2⟩, ih h.2 (by omega)⟩

/-- A write inside the array keeps the canonical form. -/
theorem Cells.wf_write {size : Nat} {m : Cells w} (h : Cells.wf size m = true) {a : Nat}
    (ha : a < size) (v : BitVec w) : Cells.wf size (Cells.write m a v) = true :=
  Cells.wfFrom_write h (Nat.zero_le a) ha v

/-- The empty array is canonical. -/
@[simp] theorem Cells.wf_nil (size : Nat) : Cells.wf size ([] : Cells w) = true := rfl

@[simp] theorem Memory.wf_nil (size : Nat) : Memory.wf size [] = true := rfl

theorem Memory.wf_write {size : Nat} {m : Memory} (h : Memory.wf size m = true) {a : Nat}
    (ha : a < size) (v : Byte) : Memory.wf size (m.write a v) = true :=
  Cells.wf_write h ha v

theorem Memory.read_write_same {size : Nat} {m : Memory} (h : Memory.wf size m = true)
    (a : Nat) (v : Byte) : (m.write a v).read a = v :=
  Cells.read_write_same h a v

theorem Memory.read_write_other (m : Memory) {a c : Nat} (v : Byte) (hc : c ≠ a) :
    (m.write a v).read c = m.read c :=
  Cells.read_write_other m a c v hc

/-- Bank data loads into canonical form. -/
theorem Memory.wf_ofBytesFrom {size : Nat} (bytes : List Byte) (k : Nat)
    (h : k + bytes.length ≤ size) :
    Cells.wfFrom size k (Memory.ofBytesFrom k bytes) = true := by
  induction bytes generalizing k with
  | nil => rfl
  | cons b rest ih =>
    simp only [List.length_cons] at h
    have hr := ih (k + 1) (by omega)
    by_cases hb : b = 0#8
    · simp only [Memory.ofBytesFrom, hb, if_true]
      exact Cells.wfFrom_mono hr (by omega)
    · simp only [Memory.ofBytesFrom, hb, if_false, Cells.wfFrom, Bool.and_eq_true,
        decide_eq_true_eq]
      exact ⟨⟨⟨le_refl k, by omega⟩, hb⟩, hr⟩

end Sys2Proof.Machine
end

