-- ==== Sys2Proof/Laws/Devices.lean ====
section
/-! SUPPORT. What the operations on the PPU, APU and cartridge records keep: canonical storage, the raster
position, the rendering predicate, and the cartridge's constants. -/

namespace Sys2Proof.Machine

/-! ### Cartridge -/

@[simp] theorem Cart.cpuRead_chr (c : Cart) (ob : Byte) (a : Word) : (c.cpuRead ob a).2.chr = c.chr := by
  unfold Cart.cpuRead; split <;> rfl

/-- A CPU read changes at most the bank registers. -/
theorem Cart.cpuRead_eq (c : Cart) (ob : Byte) (a : Word) :
    (c.cpuRead ob a).2 = { c with regs := (c.cpuRead ob a).2.regs } := by
  unfold Cart.cpuRead; split <;> rfl

/-- A CPU write changes at most the bank registers. -/
theorem Cart.cpuWrite_eq (c : Cart) (a : Word) (v : Byte) :
    c.cpuWrite a v = { c with regs := (c.cpuWrite a v).regs } := by
  unfold Cart.cpuWrite; split <;> rfl

theorem Cart.notifyScanline_eq (c : Cart) :
    c.notifyScanline = { c with regs := c.notifyScanline.regs } := by
  unfold Cart.notifyScanline; split <;> rfl

/-- A CHR write changes at most the CHR contents, and those only when CHR is RAM. -/
theorem Cart.chrWrite_eq (c : Cart) (a : BitVec 14) (v : Byte) :
    c.chrWrite a v = { c with chr := (c.chrWrite a v).chr } := by
  unfold Cart.chrWrite
  split
  · split
    · rfl
    · split <;> rfl
  · rfl

theorem Cart.chrWrite_rom (c : Cart) (a : BitVec 14) (v : Byte) (h : c.chrRam = false) :
    c.chrWrite a v = c := by
  simp [Cart.chrWrite, h]

/-- The no-bank-switch cartridge is a constant for CPU accesses. -/
theorem Cart.cpuRead_nrom {c : Cart} (h : c.variant = .nrom) (ob : Byte) (a : Word) :
    c.cpuRead ob a = (if 0x8000 ≤ a.toNat then c.prg.read (c.prgOffset a) else ob, c) := by
  simp [Cart.cpuRead, h]

theorem Cart.cpuWrite_nrom {c : Cart} (h : c.variant = .nrom) (a : Word) (v : Byte) :
    c.cpuWrite a v = c := by
  simp [Cart.cpuWrite, h]

theorem Cart.irq_nrom {c : Cart} (h : c.variant = .nrom) : c.irq = false := by
  simp [Cart.irq, h]

theorem Cart.wf_regs {c : Cart} (h : c.wf = true) (r : List Byte) :
    Cart.wf { c with regs := r } = true := by
  unfold Cart.wf at *
  cases hv : c.variant <;> simp_all [Cart.nromWf]

theorem Cart.wf_chrWrite {c : Cart} (h : c.wf = true) (a : BitVec 14) (ha : a.toNat < 0x2000)
    (v : Byte) : (c.chrWrite a v).wf = true := by
  unfold Cart.chrWrite
  split
  case isFalse => exact h
  case isTrue hr =>
    cases hv : c.variant with
    | nrom =>
      simp only [Cart.wf, hv, Cart.nromWf, Bool.and_eq_true] at h ⊢
      exact ⟨h.1, Memory.wf_write h.2 ha v⟩
    | other n =>
      simp only
      split
      · next o _ =>
        simp only [Cart.wf, hv, hr, Bool.not_true, Bool.false_or] at h ⊢
        exact Memory.wf_write h (by have := o.isLt; omega) v
      · exact h

theorem Cart.wf_reset {c : Cart} (h : c.wf = true) : c.reset.wf = true := by
  unfold Cart.wf Cart.reset Cart.nromWf at *
  cases hv : c.variant <;> cases hr : c.chrRam <;> simp_all

/-! ### PPU -/

theorem palIndex_lt (a : BitVec 14) : palIndex a < 32 := by
  have h1 : (a &&& 0x1F#14).toNat ≤ 31 := by
    rw [BitVec.toNat_and]; exact Nat.and_le_right
  have h2 : ((a &&& 0x1F#14) &&& 0x0F#14).toNat ≤ 15 := by
    rw [BitVec.toNat_and]; exact Nat.and_le_right
  unfold palIndex
  simp only
  split <;> omega

theorem ntIndex_lt (m : Mirroring) (a : BitVec 14) : ntIndex m a < 0x800 := by
  cases m <;> simp only [ntIndex] <;> omega

theorem Cells.all_write {w : Nat} (q : BitVec w → Bool) {m : Cells w} {a : Nat} {v : BitVec w}
    (h : m.all (fun c => q c.2) = true) (hv : q v = true) :
    (Cells.write m a v).all (fun c => q c.2) = true := by
  induction m with
  | nil => by_cases h0 : v = 0#w <;> simp_all [Cells.write]
  | cons e rest ih =>
    obtain ⟨k, b⟩ := e
    simp only [List.all_cons, Bool.and_eq_true] at h
    have h' := ih h.2
    unfold Cells.write
    split
    · split <;> simp only [List.all_cons, Bool.and_eq_true, hv, h.1, h.2, and_self]
    · split
      · split <;> simp only [List.all_cons, Bool.and_eq_true, hv, h.2, and_self]
      · simp only [List.all_cons, Bool.and_eq_true, h.1, h', and_self]

theorem Ppu.wf_pal {p : Ppu} (h : p.wf = true) (i : BitVec 14) (v : Byte) :
    Ppu.wf { p with pal := p.pal.write (palIndex i) (v &&& 0x3F#8) } = true := by
  simp only [Ppu.wf, Bool.and_eq_true] at h ⊢
  refine ⟨⟨⟨⟨h.1.1.1.1, Memory.wf_write h.1.1.1.2 (palIndex_lt i) _⟩, ?_⟩, h.1.2⟩, h.2⟩
  have hv : decide ((v &&& 0x3F#8) &&& 0xC0#8 = 0#8) = true := by
    rw [BitVec.and_assoc]; simp
  exact Cells.all_write (q := fun b : Byte => decide (b &&& 0xC0#8 = 0#8)) h.1.1.2 hv

/-- A PPU-space write keeps the storage in form. -/
theorem ppuWrite_wf {p : Ppu} {c : Cart} (hp : p.wf = true) (hc : c.wf = true) (a : BitVec 14)
    (v : Byte) : (ppuWrite p c a v).1.wf = true ∧ (ppuWrite p c a v).2.wf = true := by
  unfold ppuWrite
  split
  · exact ⟨hp, Cart.wf_chrWrite hc a ‹_› v⟩
  · split
    · refine ⟨?_, hc⟩
      simp only [Ppu.wf, Bool.and_eq_true] at hp ⊢
      exact ⟨⟨⟨⟨Memory.wf_write hp.1.1.1.1 (ntIndex_lt _ _) _, hp.1.1.1.2⟩, hp.1.1.2⟩, hp.1.2⟩, hp.2⟩
    · exact ⟨Ppu.wf_pal hp a v, hc⟩

theorem Ppu.wf_oam {p : Ppu} (h : p.wf = true) (a : Byte) (v : Byte) :
    Ppu.wf { p with oam := p.oam.write a.toNat v } = true := by
  simp only [Ppu.wf, Bool.and_eq_true] at h ⊢
  exact ⟨⟨h.1.1, Memory.wf_write h.1.2 a.isLt v⟩, h.2⟩

/-- A PPU-space write leaves the mask, the control byte and the raster position alone. -/
theorem ppuWrite_frame (p : Ppu) (c : Cart) (a : BitVec 14) (v : Byte) :
    (ppuWrite p c a v).1 = { p with vram := (ppuWrite p c a v).1.vram, pal := (ppuWrite p c a v).1.pal } := by
  unfold ppuWrite
  split
  · rfl
  · split <;> rfl

end Sys2Proof.Machine
end

