-- ==== Sys2Proof/Laws/State.lean ====
section
/-! SUPPORT. One lemma per field per update of State. -/

namespace Sys2Proof.Machine

@[simp] theorem State.setA_a (s : State) (v : Byte) : (s.setA v).a = v := rfl
@[simp] theorem State.setA_x (s : State) (v : Byte) : (s.setA v).x = s.x := rfl
@[simp] theorem State.setA_y (s : State) (v : Byte) : (s.setA v).y = s.y := rfl
@[simp] theorem State.setA_sp (s : State) (v : Byte) : (s.setA v).sp = s.sp := rfl
@[simp] theorem State.setA_pc (s : State) (v : Byte) : (s.setA v).pc = s.pc := rfl
@[simp] theorem State.setA_p (s : State) (v : Byte) : (s.setA v).p = s.p := rfl
@[simp] theorem State.setA_nmiPending (s : State) (v : Byte) : (s.setA v).nmiPending = s.nmiPending := rfl
@[simp] theorem State.setA_wait (s : State) (v : Byte) : (s.setA v).wait = s.wait := rfl
@[simp] theorem State.setA_cyc (s : State) (v : Byte) : (s.setA v).cyc = s.cyc := rfl
@[simp] theorem State.setA_dmaExtra (s : State) (v : Byte) : (s.setA v).dmaExtra = s.dmaExtra := rfl
@[simp] theorem State.setA_ram (s : State) (v : Byte) : (s.setA v).ram = s.ram := rfl
@[simp] theorem State.setA_ppu (s : State) (v : Byte) : (s.setA v).ppu = s.ppu := rfl
@[simp] theorem State.setA_frameBuf (s : State) (v : Byte) : (s.setA v).frameBuf = s.frameBuf := rfl
@[simp] theorem State.setA_apu (s : State) (v : Byte) : (s.setA v).apu = s.apu := rfl
@[simp] theorem State.setA_pads (s : State) (v : Byte) : (s.setA v).pads = s.pads := rfl
@[simp] theorem State.setA_cart (s : State) (v : Byte) : (s.setA v).cart = s.cart := rfl
@[simp] theorem State.setA_frameComplete (s : State) (v : Byte) : (s.setA v).frameComplete = s.frameComplete := rfl
@[simp] theorem State.setA_params (s : State) (v : Byte) : (s.setA v).params = s.params := rfl

@[simp] theorem State.setX_a (s : State) (v : Byte) : (s.setX v).a = s.a := rfl
@[simp] theorem State.setX_x (s : State) (v : Byte) : (s.setX v).x = v := rfl
@[simp] theorem State.setX_y (s : State) (v : Byte) : (s.setX v).y = s.y := rfl
@[simp] theorem State.setX_sp (s : State) (v : Byte) : (s.setX v).sp = s.sp := rfl
@[simp] theorem State.setX_pc (s : State) (v : Byte) : (s.setX v).pc = s.pc := rfl
@[simp] theorem State.setX_p (s : State) (v : Byte) : (s.setX v).p = s.p := rfl
@[simp] theorem State.setX_nmiPending (s : State) (v : Byte) : (s.setX v).nmiPending = s.nmiPending := rfl
@[simp] theorem State.setX_wait (s : State) (v : Byte) : (s.setX v).wait = s.wait := rfl
@[simp] theorem State.setX_cyc (s : State) (v : Byte) : (s.setX v).cyc = s.cyc := rfl
@[simp] theorem State.setX_dmaExtra (s : State) (v : Byte) : (s.setX v).dmaExtra = s.dmaExtra := rfl
@[simp] theorem State.setX_ram (s : State) (v : Byte) : (s.setX v).ram = s.ram := rfl
@[simp] theorem State.setX_ppu (s : State) (v : Byte) : (s.setX v).ppu = s.ppu := rfl
@[simp] theorem State.setX_frameBuf (s : State) (v : Byte) : (s.setX v).frameBuf = s.frameBuf := rfl
@[simp] theorem State.setX_apu (s : State) (v : Byte) : (s.setX v).apu = s.apu := rfl
@[simp] theorem State.setX_pads (s : State) (v : Byte) : (s.setX v).pads = s.pads := rfl
@[simp] theorem State.setX_cart (s : State) (v : Byte) : (s.setX v).cart = s.cart := rfl
@[simp] theorem State.setX_frameComplete (s : State) (v : Byte) : (s.setX v).frameComplete = s.frameComplete := rfl
@[simp] theorem State.setX_params (s : State) (v : Byte) : (s.setX v).params = s.params := rfl

@[simp] theorem State.setY_a (s : State) (v : Byte) : (s.setY v).a = s.a := rfl
@[simp] theorem State.setY_x (s : State) (v : Byte) : (s.setY v).x = s.x := rfl
@[simp] theorem State.setY_y (s : State) (v : Byte) : (s.setY v).y = v := rfl
@[simp] theorem State.setY_sp (s : State) (v : Byte) : (s.setY v).sp = s.sp := rfl
@[simp] theorem State.setY_pc (s : State) (v : Byte) : (s.setY v).pc = s.pc := rfl
@[simp] theorem State.setY_p (s : State) (v : Byte) : (s.setY v).p = s.p := rfl
@[simp] theorem State.setY_nmiPending (s : State) (v : Byte) : (s.setY v).nmiPending = s.nmiPending := rfl
@[simp] theorem State.setY_wait (s : State) (v : Byte) : (s.setY v).wait = s.wait := rfl
@[simp] theorem State.setY_cyc (s : State) (v : Byte) : (s.setY v).cyc = s.cyc := rfl
@[simp] theorem State.setY_dmaExtra (s : State) (v : Byte) : (s.setY v).dmaExtra = s.dmaExtra := rfl
@[simp] theorem State.setY_ram (s : State) (v : Byte) : (s.setY v).ram = s.ram := rfl
@[simp] theorem State.setY_ppu (s : State) (v : Byte) : (s.setY v).ppu = s.ppu := rfl
@[simp] theorem State.setY_frameBuf (s : State) (v : Byte) : (s.setY v).frameBuf = s.frameBuf := rfl
@[simp] theorem State.setY_apu (s : State) (v : Byte) : (s.setY v).apu = s.apu := rfl
@[simp] theorem State.setY_pads (s : State) (v : Byte) : (s.setY v).pads = s.pads := rfl
@[simp] theorem State.setY_cart (s : State) (v : Byte) : (s.setY v).cart = s.cart := rfl
@[simp] theorem State.setY_frameComplete (s : State) (v : Byte) : (s.setY v).frameComplete = s.frameComplete := rfl
@[simp] theorem State.setY_params (s : State) (v : Byte) : (s.setY v).params = s.params := rfl

@[simp] theorem State.setSp_a (s : State) (v : Byte) : (s.setSp v).a = s.a := rfl
@[simp] theorem State.setSp_x (s : State) (v : Byte) : (s.setSp v).x = s.x := rfl
@[simp] theorem State.setSp_y (s : State) (v : Byte) : (s.setSp v).y = s.y := rfl
@[simp] theorem State.setSp_sp (s : State) (v : Byte) : (s.setSp v).sp = v := rfl
@[simp] theorem State.setSp_pc (s : State) (v : Byte) : (s.setSp v).pc = s.pc := rfl
@[simp] theorem State.setSp_p (s : State) (v : Byte) : (s.setSp v).p = s.p := rfl
@[simp] theorem State.setSp_nmiPending (s : State) (v : Byte) : (s.setSp v).nmiPending = s.nmiPending := rfl
@[simp] theorem State.setSp_wait (s : State) (v : Byte) : (s.setSp v).wait = s.wait := rfl
@[simp] theorem State.setSp_cyc (s : State) (v : Byte) : (s.setSp v).cyc = s.cyc := rfl
@[simp] theorem State.setSp_dmaExtra (s : State) (v : Byte) : (s.setSp v).dmaExtra = s.dmaExtra := rfl
@[simp] theorem State.setSp_ram (s : State) (v : Byte) : (s.setSp v).ram = s.ram := rfl
@[simp] theorem State.setSp_ppu (s : State) (v : Byte) : (s.setSp v).ppu = s.ppu := rfl
@[simp] theorem State.setSp_frameBuf (s : State) (v : Byte) : (s.setSp v).frameBuf = s.frameBuf := rfl
@[simp] theorem State.setSp_apu (s : State) (v : Byte) : (s.setSp v).apu = s.apu := rfl
@[simp] theorem State.setSp_pads (s : State) (v : Byte) : (s.setSp v).pads = s.pads := rfl
@[simp] theorem State.setSp_cart (s : State) (v : Byte) : (s.setSp v).cart = s.cart := rfl
@[simp] theorem State.setSp_frameComplete (s : State) (v : Byte) : (s.setSp v).frameComplete = s.frameComplete := rfl
@[simp] theorem State.setSp_params (s : State) (v : Byte) : (s.setSp v).params = s.params := rfl

@[simp] theorem State.setPc_a (s : State) (v : Word) : (s.setPc v).a = s.a := rfl
@[simp] theorem State.setPc_x (s : State) (v : Word) : (s.setPc v).x = s.x := rfl
@[simp] theorem State.setPc_y (s : State) (v : Word) : (s.setPc v).y = s.y := rfl
@[simp] theorem State.setPc_sp (s : State) (v : Word) : (s.setPc v).sp = s.sp := rfl
@[simp] theorem State.setPc_pc (s : State) (v : Word) : (s.setPc v).pc = v := rfl
@[simp] theorem State.setPc_p (s : State) (v : Word) : (s.setPc v).p = s.p := rfl
@[simp] theorem State.setPc_nmiPending (s : State) (v : Word) : (s.setPc v).nmiPending = s.nmiPending := rfl
@[simp] theorem State.setPc_wait (s : State) (v : Word) : (s.setPc v).wait = s.wait := rfl
@[simp] theorem State.setPc_cyc (s : State) (v : Word) : (s.setPc v).cyc = s.cyc := rfl
@[simp] theorem State.setPc_dmaExtra (s : State) (v : Word) : (s.setPc v).dmaExtra = s.dmaExtra := rfl
@[simp] theorem State.setPc_ram (s : State) (v : Word) : (s.setPc v).ram = s.ram := rfl
@[simp] theorem State.setPc_ppu (s : State) (v : Word) : (s.setPc v).ppu = s.ppu := rfl
@[simp] theorem State.setPc_frameBuf (s : State) (v : Word) : (s.setPc v).frameBuf = s.frameBuf := rfl
@[simp] theorem State.setPc_apu (s : State) (v : Word) : (s.setPc v).apu = s.apu := rfl
@[simp] theorem State.setPc_pads (s : State) (v : Word) : (s.setPc v).pads = s.pads := rfl
@[simp] theorem State.setPc_cart (s : State) (v : Word) : (s.setPc v).cart = s.cart := rfl
@[simp] theorem State.setPc_frameComplete (s : State) (v : Word) : (s.setPc v).frameComplete = s.frameComplete := rfl
@[simp] theorem State.setPc_params (s : State) (v : Word) : (s.setPc v).params = s.params := rfl

@[simp] theorem State.setP_a (s : State) (v : Flags) : (s.setP v).a = s.a := rfl
@[simp] theorem State.setP_x (s : State) (v : Flags) : (s.setP v).x = s.x := rfl
@[simp] theorem State.setP_y (s : State) (v : Flags) : (s.setP v).y = s.y := rfl
@[simp] theorem State.setP_sp (s : State) (v : Flags) : (s.setP v).sp = s.sp := rfl
@[simp] theorem State.setP_pc (s : State) (v : Flags) : (s.setP v).pc = s.pc := rfl
@[simp] theorem State.setP_p (s : State) (v : Flags) : (s.setP v).p = v := rfl
@[simp] theorem State.setP_nmiPending (s : State) (v : Flags) : (s.setP v).nmiPending = s.nmiPending := rfl
@[simp] theorem State.setP_wait (s : State) (v : Flags) : (s.setP v).wait = s.wait := rfl
@[simp] theorem State.setP_cyc (s : State) (v : Flags) : (s.setP v).cyc = s.cyc := rfl
@[simp] theorem State.setP_dmaExtra (s : State) (v : Flags) : (s.setP v).dmaExtra = s.dmaExtra := rfl
@[simp] theorem State.setP_ram (s : State) (v : Flags) : (s.setP v).ram = s.ram := rfl
@[simp] theorem State.setP_ppu (s : State) (v : Flags) : (s.setP v).ppu = s.ppu := rfl
@[simp] theorem State.setP_frameBuf (s : State) (v : Flags) : (s.setP v).frameBuf = s.frameBuf := rfl
@[simp] theorem State.setP_apu (s : State) (v : Flags) : (s.setP v).apu = s.apu := rfl
@[simp] theorem State.setP_pads (s : State) (v : Flags) : (s.setP v).pads = s.pads := rfl
@[simp] theorem State.setP_cart (s : State) (v : Flags) : (s.setP v).cart = s.cart := rfl
@[simp] theorem State.setP_frameComplete (s : State) (v : Flags) : (s.setP v).frameComplete = s.frameComplete := rfl
@[simp] theorem State.setP_params (s : State) (v : Flags) : (s.setP v).params = s.params := rfl

@[simp] theorem State.setNmiPending_a (s : State) (v : Bool) : (s.setNmiPending v).a = s.a := rfl
@[simp] theorem State.setNmiPending_x (s : State) (v : Bool) : (s.setNmiPending v).x = s.x := rfl
@[simp] theorem State.setNmiPending_y (s : State) (v : Bool) : (s.setNmiPending v).y = s.y := rfl
@[simp] theorem State.setNmiPending_sp (s : State) (v : Bool) : (s.setNmiPending v).sp = s.sp := rfl
@[simp] theorem State.setNmiPending_pc (s : State) (v : Bool) : (s.setNmiPending v).pc = s.pc := rfl
@[simp] theorem State.setNmiPending_p (s : State) (v : Bool) : (s.setNmiPending v).p = s.p := rfl
@[simp] theorem State.setNmiPending_nmiPending (s : State) (v : Bool) : (s.setNmiPending v).nmiPending = v := rfl
@[simp] theorem State.setNmiPending_wait (s : State) (v : Bool) : (s.setNmiPending v).wait = s.wait := rfl
@[simp] theorem State.setNmiPending_cyc (s : State) (v : Bool) : (s.setNmiPending v).cyc = s.cyc := rfl
@[simp] theorem State.setNmiPending_dmaExtra (s : State) (v : Bool) : (s.setNmiPending v).dmaExtra = s.dmaExtra := rfl
@[simp] theorem State.setNmiPending_ram (s : State) (v : Bool) : (s.setNmiPending v).ram = s.ram := rfl
@[simp] theorem State.setNmiPending_ppu (s : State) (v : Bool) : (s.setNmiPending v).ppu = s.ppu := rfl
@[simp] theorem State.setNmiPending_frameBuf (s : State) (v : Bool) : (s.setNmiPending v).frameBuf = s.frameBuf := rfl
@[simp] theorem State.setNmiPending_apu (s : State) (v : Bool) : (s.setNmiPending v).apu = s.apu := rfl
@[simp] theorem State.setNmiPending_pads (s : State) (v : Bool) : (s.setNmiPending v).pads = s.pads := rfl
@[simp] theorem State.setNmiPending_cart (s : State) (v : Bool) : (s.setNmiPending v).cart = s.cart := rfl
@[simp] theorem State.setNmiPending_frameComplete (s : State) (v : Bool) : (s.setNmiPending v).frameComplete = s.frameComplete := rfl
@[simp] theorem State.setNmiPending_params (s : State) (v : Bool) : (s.setNmiPending v).params = s.params := rfl

@[simp] theorem State.setWait_a (s : State) (v : Nat) : (s.setWait v).a = s.a := rfl
@[simp] theorem State.setWait_x (s : State) (v : Nat) : (s.setWait v).x = s.x := rfl
@[simp] theorem State.setWait_y (s : State) (v : Nat) : (s.setWait v).y = s.y := rfl
@[simp] theorem State.setWait_sp (s : State) (v : Nat) : (s.setWait v).sp = s.sp := rfl
@[simp] theorem State.setWait_pc (s : State) (v : Nat) : (s.setWait v).pc = s.pc := rfl
@[simp] theorem State.setWait_p (s : State) (v : Nat) : (s.setWait v).p = s.p := rfl
@[simp] theorem State.setWait_nmiPending (s : State) (v : Nat) : (s.setWait v).nmiPending = s.nmiPending := rfl
@[simp] theorem State.setWait_wait (s : State) (v : Nat) : (s.setWait v).wait = v := rfl
@[simp] theorem State.setWait_cyc (s : State) (v : Nat) : (s.setWait v).cyc = s.cyc := rfl
@[simp] theorem State.setWait_dmaExtra (s : State) (v : Nat) : (s.setWait v).dmaExtra = s.dmaExtra := rfl
@[simp] theorem State.setWait_ram (s : State) (v : Nat) : (s.setWait v).ram = s.ram := rfl
@[simp] theorem State.setWait_ppu (s : State) (v : Nat) : (s.setWait v).ppu = s.ppu := rfl
@[simp] theorem State.setWait_frameBuf (s : State) (v : Nat) : (s.setWait v).frameBuf = s.frameBuf := rfl
@[simp] theorem State.setWait_apu (s : State) (v : Nat) : (s.setWait v).apu = s.apu := rfl
@[simp] theorem State.setWait_pads (s : State) (v : Nat) : (s.setWait v).pads = s.pads := rfl
@[simp] theorem State.setWait_cart (s : State) (v : Nat) : (s.setWait v).cart = s.cart := rfl
@[simp] theorem State.setWait_frameComplete (s : State) (v : Nat) : (s.setWait v).frameComplete = s.frameComplete := rfl
@[simp] theorem State.setWait_params (s : State) (v : Nat) : (s.setWait v).params = s.params := rfl

@[simp] theorem State.setCyc_a (s : State) (v : Nat) : (s.setCyc v).a = s.a := rfl
@[simp] theorem State.setCyc_x (s : State) (v : Nat) : (s.setCyc v).x = s.x := rfl
@[simp] theorem State.setCyc_y (s : State) (v : Nat) : (s.setCyc v).y = s.y := rfl
@[simp] theorem State.setCyc_sp (s : State) (v : Nat) : (s.setCyc v).sp = s.sp := rfl
@[simp] theorem State.setCyc_pc (s : State) (v : Nat) : (s.setCyc v).pc = s.pc := rfl
@[simp] theorem State.setCyc_p (s : State) (v : Nat) : (s.setCyc v).p = s.p := rfl
@[simp] theorem State.setCyc_nmiPending (s : State) (v : Nat) : (s.setCyc v).nmiPending = s.nmiPending := rfl
@[simp] theorem State.setCyc_wait (s : State) (v : Nat) : (s.setCyc v).wait = s.wait := rfl
@[simp] theorem State.setCyc_cyc (s : State) (v : Nat) : (s.setCyc v).cyc = v := rfl
@[simp] theorem State.setCyc_dmaExtra (s : State) (v : Nat) : (s.setCyc v).dmaExtra = s.dmaExtra := rfl
@[simp] theorem State.setCyc_ram (s : State) (v : Nat) : (s.setCyc v).ram = s.ram := rfl
@[simp] theorem State.setCyc_ppu (s : State) (v : Nat) : (s.setCyc v).ppu = s.ppu := rfl
@[simp] theorem State.setCyc_frameBuf (s : State) (v : Nat) : (s.setCyc v).frameBuf = s.frameBuf := rfl
@[simp] theorem State.setCyc_apu (s : State) (v : Nat) : (s.setCyc v).apu = s.apu := rfl
@[simp] theorem State.setCyc_pads (s : State) (v : Nat) : (s.setCyc v).pads = s.pads := rfl
@[simp] theorem State.setCyc_cart (s : State) (v : Nat) : (s.setCyc v).cart = s.cart := rfl
@[simp] theorem State.setCyc_frameComplete (s : State) (v : Nat) : (s.setCyc v).frameComplete = s.frameComplete := rfl
@[simp] theorem State.setCyc_params (s : State) (v : Nat) : (s.setCyc v).params = s.params := rfl

@[simp] theorem State.setDmaExtra_a (s : State) (v : Nat) : (s.setDmaExtra v).a = s.a := rfl
@[simp] theorem State.setDmaExtra_x (s : State) (v : Nat) : (s.setDmaExtra v).x = s.x := rfl
@[simp] theorem State.setDmaExtra_y (s : State) (v : Nat) : (s.setDmaExtra v).y = s.y := rfl
@[simp] theorem State.setDmaExtra_sp (s : State) (v : Nat) : (s.setDmaExtra v).sp = s.sp := rfl
@[simp] theorem State.setDmaExtra_pc (s : State) (v : Nat) : (s.setDmaExtra v).pc = s.pc := rfl
@[simp] theorem State.setDmaExtra_p (s : State) (v : Nat) : (s.setDmaExtra v).p = s.p := rfl
@[simp] theorem State.setDmaExtra_nmiPending (s : State) (v : Nat) : (s.setDmaExtra v).nmiPending = s.nmiPending := rfl
@[simp] theorem State.setDmaExtra_wait (s : State) (v : Nat) : (s.setDmaExtra v).wait = s.wait := rfl
@[simp] theorem State.setDmaExtra_cyc (s : State) (v : Nat) : (s.setDmaExtra v).cyc = s.cyc := rfl
@[simp] theorem State.setDmaExtra_dmaExtra (s : State) (v : Nat) : (s.setDmaExtra v).dmaExtra = v := rfl
@[simp] theorem State.setDmaExtra_ram (s : State) (v : Nat) : (s.setDmaExtra v).ram = s.ram := rfl
@[simp] theorem State.setDmaExtra_ppu (s : State) (v : Nat) : (s.setDmaExtra v).ppu = s.ppu := rfl
@[simp] theorem State.setDmaExtra_frameBuf (s : State) (v : Nat) : (s.setDmaExtra v).frameBuf = s.frameBuf := rfl
@[simp] theorem State.setDmaExtra_apu (s : State) (v : Nat) : (s.setDmaExtra v).apu = s.apu := rfl
@[simp] theorem State.setDmaExtra_pads (s : State) (v : Nat) : (s.setDmaExtra v).pads = s.pads := rfl
@[simp] theorem State.setDmaExtra_cart (s : State) (v : Nat) : (s.setDmaExtra v).cart = s.cart := rfl
@[simp] theorem State.setDmaExtra_frameComplete (s : State) (v : Nat) : (s.setDmaExtra v).frameComplete = s.frameComplete := rfl
@[simp] theorem State.setDmaExtra_params (s : State) (v : Nat) : (s.setDmaExtra v).params = s.params := rfl

@[simp] theorem State.setRam_a (s : State) (v : Memory) : (s.setRam v).a = s.a := rfl
@[simp] theorem State.setRam_x (s : State) (v : Memory) : (s.setRam v).x = s.x := rfl
@[simp] theorem State.setRam_y (s : State) (v : Memory) : (s.setRam v).y = s.y := rfl
@[simp] theorem State.setRam_sp (s : State) (v : Memory) : (s.setRam v).sp = s.sp := rfl
@[simp] theorem State.setRam_pc (s : State) (v : Memory) : (s.setRam v).pc = s.pc := rfl
@[simp] theorem State.setRam_p (s : State) (v : Memory) : (s.setRam v).p = s.p := rfl
@[simp] theorem State.setRam_nmiPending (s : State) (v : Memory) : (s.setRam v).nmiPending = s.nmiPending := rfl
@[simp] theorem State.setRam_wait (s : State) (v : Memory) : (s.setRam v).wait = s.wait := rfl
@[simp] theorem State.setRam_cyc (s : State) (v : Memory) : (s.setRam v).cyc = s.cyc := rfl
@[simp] theorem State.setRam_dmaExtra (s : State) (v : Memory) : (s.setRam v).dmaExtra = s.dmaExtra := rfl
@[simp] theorem State.setRam_ram (s : State) (v : Memory) : (s.setRam v).ram = v := rfl
@[simp] theorem State.setRam_ppu (s : State) (v : Memory) : (s.setRam v).ppu = s.ppu := rfl
@[simp] theorem State.setRam_frameBuf (s : State) (v : Memory) : (s.setRam v).frameBuf = s.frameBuf := rfl
@[simp] theorem State.setRam_apu (s : State) (v : Memory) : (s.setRam v).apu = s.apu := rfl
@[simp] theorem State.setRam_pads (s : State) (v : Memory) : (s.setRam v).pads = s.pads := rfl
@[simp] theorem State.setRam_cart (s : State) (v : Memory) : (s.setRam v).cart = s.cart := rfl
@[simp] theorem State.setRam_frameComplete (s : State) (v : Memory) : (s.setRam v).frameComplete = s.frameComplete := rfl
@[simp] theorem State.setRam_params (s : State) (v : Memory) : (s.setRam v).params = s.params := rfl

@[simp] theorem State.setPpu_a (s : State) (v : Ppu) : (s.setPpu v).a = s.a := rfl
@[simp] theorem State.setPpu_x (s : State) (v : Ppu) : (s.setPpu v).x = s.x := rfl
@[simp] theorem State.setPpu_y (s : State) (v : Ppu) : (s.setPpu v).y = s.y := rfl
@[simp] theorem State.setPpu_sp (s : State) (v : Ppu) : (s.setPpu v).sp = s.sp := rfl
@[simp] theorem State.setPpu_pc (s : State) (v : Ppu) : (s.setPpu v).pc = s.pc := rfl
@[simp] theorem State.setPpu_p (s : State) (v : Ppu) : (s.setPpu v).p = s.p := rfl
@[simp] theorem State.setPpu_nmiPending (s : State) (v : Ppu) : (s.setPpu v).nmiPending = s.nmiPending := rfl
@[simp] theorem State.setPpu_wait (s : State) (v : Ppu) : (s.setPpu v).wait = s.wait := rfl
@[simp] theorem State.setPpu_cyc (s : State) (v : Ppu) : (s.setPpu v).cyc = s.cyc := rfl
@[simp] theorem State.setPpu_dmaExtra (s : State) (v : Ppu) : (s.setPpu v).dmaExtra = s.dmaExtra := rfl
@[simp] theorem State.setPpu_ram (s : State) (v : Ppu) : (s.setPpu v).ram = s.ram := rfl
@[simp] theorem State.setPpu_ppu (s : State) (v : Ppu) : (s.setPpu v).ppu = v := rfl
@[simp] theorem State.setPpu_frameBuf (s : State) (v : Ppu) : (s.setPpu v).frameBuf = s.frameBuf := rfl
@[simp] theorem State.setPpu_apu (s : State) (v : Ppu) : (s.setPpu v).apu = s.apu := rfl
@[simp] theorem State.setPpu_pads (s : State) (v : Ppu) : (s.setPpu v).pads = s.pads := rfl
@[simp] theorem State.setPpu_cart (s : State) (v : Ppu) : (s.setPpu v).cart = s.cart := rfl
@[simp] theorem State.setPpu_frameComplete (s : State) (v : Ppu) : (s.setPpu v).frameComplete = s.frameComplete := rfl
@[simp] theorem State.setPpu_params (s : State) (v : Ppu) : (s.setPpu v).params = s.params := rfl

@[simp] theorem State.setFrameBuf_a (s : State) (v : Cells 24) : (s.setFrameBuf v).a = s.a := rfl
@[simp] theorem State.setFrameBuf_x (s : State) (v : Cells 24) : (s.setFrameBuf v).x = s.x := rfl
@[simp] theorem State.setFrameBuf_y (s : State) (v : Cells 24) : (s.setFrameBuf v).y = s.y := rfl
@[simp] theorem State.setFrameBuf_sp (s : State) (v : Cells 24) : (s.setFrameBuf v).sp = s.sp := rfl
@[simp] theorem State.setFrameBuf_pc (s : State) (v : Cells 24) : (s.setFrameBuf v).pc = s.pc := rfl
@[simp] theorem State.setFrameBuf_p (s : State) (v : Cells 24) : (s.setFrameBuf v).p = s.p := rfl
@[simp] theorem State.setFrameBuf_nmiPending (s : State) (v : Cells 24) : (s.setFrameBuf v).nmiPending = s.nmiPending := rfl
@[simp] theorem State.setFrameBuf_wait (s : State) (v : Cells 24) : (s.setFrameBuf v).wait = s.wait := rfl
@[simp] theorem State.setFrameBuf_cyc (s : State) (v : Cells 24) : (s.setFrameBuf v).cyc = s.cyc := rfl
@[simp] theorem State.setFrameBuf_dmaExtra (s : State) (v : Cells 24) : (s.setFrameBuf v).dmaExtra = s.dmaExtra := rfl
@[simp] theorem State.setFrameBuf_ram (s : State) (v : Cells 24) : (s.setFrameBuf v).ram = s.ram := rfl
@[simp] theorem State.setFrameBuf_ppu (s : State) (v : Cells 24) : (s.setFrameBuf v).ppu = s.ppu := rfl
@[simp] theorem State.setFrameBuf_frameBuf (s : State) (v : Cells 24) : (s.setFrameBuf v).frameBuf = v := rfl
@[simp] theorem State.setFrameBuf_apu (s : State) (v : Cells 24) : (s.setFrameBuf v).apu = s.apu := rfl
@[simp] theorem State.setFrameBuf_pads (s : State) (v : Cells 24) : (s.setFrameBuf v).pads = s.pads := rfl
@[simp] theorem State.setFrameBuf_cart (s : State) (v : Cells 24) : (s.setFrameBuf v).cart = s.cart := rfl
@[simp] theorem State.setFrameBuf_frameComplete (s : State) (v : Cells 24) : (s.setFrameBuf v).frameComplete = s.frameComplete := rfl
@[simp] theorem State.setFrameBuf_params (s : State) (v : Cells 24) : (s.setFrameBuf v).params = s.params := rfl

@[simp] theorem State.setApu_a (s : State) (v : Apu) : (s.setApu v).a = s.a := rfl
@[simp] theorem State.setApu_x (s : State) (v : Apu) : (s.setApu v).x = s.x := rfl
@[simp] theorem State.setApu_y (s : State) (v : Apu) : (s.setApu v).y = s.y := rfl
@[simp] theorem State.setApu_sp (s : State) (v : Apu) : (s.setApu v).sp = s.sp := rfl
@[simp] theorem State.setApu_pc (s : State) (v : Apu) : (s.setApu v).pc = s.pc := rfl
@[simp] theorem State.setApu_p (s : State) (v : Apu) : (s.setApu v).p = s.p := rfl
@[simp] theorem State.setApu_nmiPending (s : State) (v : Apu) : (s.setApu v).nmiPending = s.nmiPending := rfl
@[simp] theorem State.setApu_wait (s : State) (v : Apu) : (s.setApu v).wait = s.wait := rfl
@[simp] theorem State.setApu_cyc (s : State) (v : Apu) : (s.setApu v).cyc = s.cyc := rfl
@[simp] theorem State.setApu_dmaExtra (s : State) (v : Apu) : (s.setApu v).dmaExtra = s.dmaExtra := rfl
@[simp] theorem State.setApu_ram (s : State) (v : Apu) : (s.setApu v).ram = s.ram := rfl
@[simp] theorem State.setApu_ppu (s : State) (v : Apu) : (s.setApu v).ppu = s.ppu := rfl
@[simp] theorem State.setApu_frameBuf (s : State) (v : Apu) : (s.setApu v).frameBuf = s.frameBuf := rfl
@[simp] theorem State.setApu_apu (s : State) (v : Apu) : (s.setApu v).apu = v := rfl
@[simp] theorem State.setApu_pads (s : State) (v : Apu) : (s.setApu v).pads = s.pads := rfl
@[simp] theorem State.setApu_cart (s : State) (v : Apu) : (s.setApu v).cart = s.cart := rfl
@[simp] theorem State.setApu_frameComplete (s : State) (v : Apu) : (s.setApu v).frameComplete = s.frameComplete := rfl
@[simp] theorem State.setApu_params (s : State) (v : Apu) : (s.setApu v).params = s.params := rfl

@[simp] theorem State.setPads_a (s : State) (v : Pads) : (s.setPads v).a = s.a := rfl
@[simp] theorem State.setPads_x (s : State) (v : Pads) : (s.setPads v).x = s.x := rfl
@[simp] theorem State.setPads_y (s : State) (v : Pads) : (s.setPads v).y = s.y := rfl
@[simp] theorem State.setPads_sp (s : State) (v : Pads) : (s.setPads v).sp = s.sp := rfl
@[simp] theorem State.setPads_pc (s : State) (v : Pads) : (s.setPads v).pc = s.pc := rfl
@[simp] theorem State.setPads_p (s : State) (v : Pads) : (s.setPads v).p = s.p := rfl
@[simp] theorem State.setPads_nmiPending (s : State) (v : Pads) : (s.setPads v).nmiPending = s.nmiPending := rfl
@[simp] theorem State.setPads_wait (s : State) (v : Pads) : (s.setPads v).wait = s.wait := rfl
@[simp] theorem State.setPads_cyc (s : State) (v : Pads) : (s.setPads v).cyc = s.cyc := rfl
@[simp] theorem State.setPads_dmaExtra (s : State) (v : Pads) : (s.setPads v).dmaExtra = s.dmaExtra := rfl
@[simp] theorem State.setPads_ram (s : State) (v : Pads) : (s.setPads v).ram = s.ram := rfl
@[simp] theorem State.setPads_ppu (s : State) (v : Pads) : (s.setPads v).ppu = s.ppu := rfl
@[simp] theorem State.setPads_frameBuf (s : State) (v : Pads) : (s.setPads v).frameBuf = s.frameBuf := rfl
@[simp] theorem State.setPads_apu (s : State) (v : Pads) : (s.setPads v).apu = s.apu := rfl
@[simp] theorem State.setPads_pads (s : State) (v : Pads) : (s.setPads v).pads = v := rfl
@[simp] theorem State.setPads_cart (s : State) (v : Pads) : (s.setPads v).cart = s.cart := rfl
@[simp] theorem State.setPads_frameComplete (s : State) (v : Pads) : (s.setPads v).frameComplete = s.frameComplete := rfl
@[simp] theorem State.setPads_params (s : State) (v : Pads) : (s.setPads v).params = s.params := rfl

@[simp] theorem State.setCart_a (s : State) (v : Cart) : (s.setCart v).a = s.a := rfl
@[simp] theorem State.setCart_x (s : State) (v : Cart) : (s.setCart v).x = s.x := rfl
@[simp] theorem State.setCart_y (s : State) (v : Cart) : (s.setCart v).y = s.y := rfl
@[simp] theorem State.setCart_sp (s : State) (v : Cart) : (s.setCart v).sp = s.sp := rfl
@[simp] theorem State.setCart_pc (s : State) (v : Cart) : (s.setCart v).pc = s.pc := rfl
@[simp] theorem State.setCart_p (s : State) (v : Cart) : (s.setCart v).p = s.p := rfl
@[simp] theorem State.setCart_nmiPending (s : State) (v : Cart) : (s.setCart v).nmiPending = s.nmiPending := rfl
@[simp] theorem State.setCart_wait (s : State) (v : Cart) : (s.setCart v).wait = s.wait := rfl
@[simp] theorem State.setCart_cyc (s : State) (v : Cart) : (s.setCart v).cyc = s.cyc := rfl
@[simp] theorem State.setCart_dmaExtra (s : State) (v : Cart) : (s.setCart v).dmaExtra = s.dmaExtra := rfl
@[simp] theorem State.setCart_ram (s : State) (v : Cart) : (s.setCart v).ram = s.ram := rfl
@[simp] theorem State.setCart_ppu (s : State) (v : Cart) : (s.setCart v).ppu = s.ppu := rfl
@[simp] theorem State.setCart_frameBuf (s : State) (v : Cart) : (s.setCart v).frameBuf = s.frameBuf := rfl
@[simp] theorem State.setCart_apu (s : State) (v : Cart) : (s.setCart v).apu = s.apu := rfl
@[simp] theorem State.setCart_pads (s : State) (v : Cart) : (s.setCart v).pads = s.pads := rfl
@[simp] theorem State.setCart_cart (s : State) (v : Cart) : (s.setCart v).cart = v := rfl
@[simp] theorem State.setCart_frameComplete (s : State) (v : Cart) : (s.setCart v).frameComplete = s.frameComplete := rfl
@[simp] theorem State.setCart_params (s : State) (v : Cart) : (s.setCart v).params = s.params := rfl

@[simp] theorem State.setFrameComplete_a (s : State) (v : Bool) : (s.setFrameComplete v).a = s.a := rfl
@[simp] theorem State.setFrameComplete_x (s : State) (v : Bool) : (s.setFrameComplete v).x = s.x := rfl
@[simp] theorem State.setFrameComplete_y (s : State) (v : Bool) : (s.setFrameComplete v).y = s.y := rfl
@[simp] theorem State.setFrameComplete_sp (s : State) (v : Bool) : (s.setFrameComplete v).sp = s.sp := rfl
@[simp] theorem State.setFrameComplete_pc (s : State) (v : Bool) : (s.setFrameComplete v).pc = s.pc := rfl
@[simp] theorem State.setFrameComplete_p (s : State) (v : Bool) : (s.setFrameComplete v).p = s.p := rfl
@[simp] theorem State.setFrameComplete_nmiPending (s : State) (v : Bool) : (s.setFrameComplete v).nmiPending = s.nmiPending := rfl
@[simp] theorem State.setFrameComplete_wait (s : State) (v : Bool) : (s.setFrameComplete v).wait = s.wait := rfl
@[simp] theorem State.setFrameComplete_cyc (s : State) (v : Bool) : (s.setFrameComplete v).cyc = s.cyc := rfl
@[simp] theorem State.setFrameComplete_dmaExtra (s : State) (v : Bool) : (s.setFrameComplete v).dmaExtra = s.dmaExtra := rfl
@[simp] theorem State.setFrameComplete_ram (s : State) (v : Bool) : (s.setFrameComplete v).ram = s.ram := rfl
@[simp] theorem State.setFrameComplete_ppu (s : State) (v : Bool) : (s.setFrameComplete v).ppu = s.ppu := rfl
@[simp] theorem State.setFrameComplete_frameBuf (s : State) (v : Bool) : (s.setFrameComplete v).frameBuf = s.frameBuf := rfl
@[simp] theorem State.setFrameComplete_apu (s : State) (v : Bool) : (s.setFrameComplete v).apu = s.apu := rfl
@[simp] theorem State.setFrameComplete_pads (s : State) (v : Bool) : (s.setFrameComplete v).pads = s.pads := rfl
@[simp] theorem State.setFrameComplete_cart (s : State) (v : Bool) : (s.setFrameComplete v).cart = s.cart := rfl
@[simp] theorem State.setFrameComplete_frameComplete (s : State) (v : Bool) : (s.setFrameComplete v).frameComplete = v := rfl
@[simp] theorem State.setFrameComplete_params (s : State) (v : Bool) : (s.setFrameComplete v).params = s.params := rfl

end Sys2Proof.Machine
end

