-- ==== Sys2Proof/Laws/Bus.lean ====
section
/-! SUPPORT. What one access to the bus can do (20_memory.md R60 to R64, R72): its frame, when it is
refused, and that it keeps the storage in form. -/

namespace Sys2Proof.Machine

/-! ### The two frames -/

theorem SameButDevices.setPpu {s t : State} (h : SameButDevices s t) (q : Ppu) :
    SameButDevices s (t.setPpu q) := by
  obtain ⟨⟩ := s; obtain ⟨⟩ := t
  simp only [SameButDevices, State.mk.injEq, true_and] at h
  simp only [SameButDevices, State.setPpu, State.mk.injEq, true_and]
  exact h

theorem SameButDevices.trans {s t u : State} (h : SameButDevices s t) (h' : SameButDevices t u) :
    SameButDevices s u := by
  obtain ⟨⟩ := s; obtain ⟨⟩ := t; obtain ⟨⟩ := u
  simp only [SameButDevices, State.mk.injEq, true_and] at h h' ⊢
  simp only [h, h', and_self]

theorem SameButDevices.setDmaExtra {s t : State} (h : SameButDevices s t) (n : Nat) :
    SameButBus s (t.setDmaExtra n) := by
  obtain ⟨⟩ := s; obtain ⟨⟩ := t
  simp only [SameButDevices, State.mk.injEq, true_and] at h
  simp only [SameButBus, State.setDmaExtra, State.mk.injEq, true_and]
  simp only [h, and_self]

theorem SameButDevices.ram {s t : State} (h : SameButDevices s t) : t.ram = s.ram := by
  obtain ⟨⟩ := s; obtain ⟨⟩ := t
  simp only [SameButDevices, State.mk.injEq, true_and] at h
  simp only [h]

/-! ### Reads -/

/-- The cases of a read that is not refused. -/
theorem memRead_cases {a : Word} {s t : State} {b : Byte} (h : memRead a s = .ok (b, t)) :
    (a.toNat < 0x2000 ∧ b = s.ram.read (a.toNat % 0x800) ∧ t = s) ∨
    ((0x2000 ≤ a.toNat ∧ a.toNat < 0x4000) ∧ ppuRegRead (a.toNat % 8) s = .ok (b, t)) ∨
    ((0x4000 ≤ a.toNat ∧ a.toNat < 0x4018) ∧ (b, t) = ioRead a s) ∨
    (0x4018 ≤ a.toNat ∧ (b, t) = cartRead a s) := by
  unfold memRead at h
  split at h
  · simp only [Except.ok.injEq, Prod.mk.injEq] at h
    exact .inl ⟨‹_›, h.1.symm, h.2.symm⟩
  · split at h
    · exact .inr (.inl ⟨⟨by omega, ‹_›⟩, h⟩)
    · split at h
      · simp only [Except.ok.injEq] at h
        exact .inr (.inr (.inl ⟨⟨by omega, ‹_›⟩, h.symm⟩))
      · simp only [Except.ok.injEq] at h
        exact .inr (.inr (.inr ⟨by omega, h.symm⟩))

/-- The cases of a PPU register read that is not refused. -/
theorem ppuRegRead_cases {r : Nat} {s t : State} {b : Byte} (h : ppuRegRead r s = .ok (b, t)) :
    (r = 2 ∧ b = s.ppu.status s.params.openBus ∧ t = s.setPpu s.ppu.afterStatusRead) ∨
    (r = 7 ∧ s.ppu.rendering = false ∧ b = (s.ppu.readData s.cart).1 ∧
      t = s.setPpu (s.ppu.readData s.cart).2) ∨
    (r ≠ 2 ∧ r ≠ 7 ∧ t = s) := by
  unfold ppuRegRead at h
  split at h
  · simp only [Except.ok.injEq, Prod.mk.injEq] at h
    exact .inl ⟨rfl, h.1.symm, h.2.symm⟩
  · simp only [Except.ok.injEq, Prod.mk.injEq] at h
    exact .inr (.inr ⟨by omega, by omega, h.2.symm⟩)
  · split at h
    · cases h
    · next hr =>
      simp only [Except.ok.injEq, Prod.mk.injEq] at h
      exact .inr (.inl ⟨rfl, Bool.eq_false_iff.mpr hr, h.1.symm, h.2.symm⟩)
  · simp only [Except.ok.injEq, Prod.mk.injEq] at h
    exact .inr (.inr ⟨by omega, by omega, h.2.symm⟩)

theorem Ppu.readData_frame (p : Ppu) (c : Cart) :
    (p.readData c).2 = { p with rdbuf := (p.readData c).2.rdbuf, v := (p.readData c).2.v } := by
  unfold Ppu.readData; simp only; split <;> rfl

/-- A read changes at most the device records. -/
theorem memRead_same {a : Word} {s t : State} {b : Byte} (h : memRead a s = .ok (b, t)) :
    SameButDevices s t := by
  rcases memRead_cases h with ⟨-, -, rfl⟩ | ⟨-, h⟩ | ⟨-, h⟩ | ⟨-, h⟩
  · rfl
  · rcases ppuRegRead_cases h with ⟨-, -, rfl⟩ | ⟨-, -, -, rfl⟩ | ⟨-, -, rfl⟩ <;> rfl
  · unfold ioRead at h
    split at h
    · cases h; rfl
    · split at h
      · cases h; rfl
      · split at h <;> cases h <;> rfl
  · cases h; rfl

/-- A read leaves the mask and the raster position, hence the rendering predicate, alone. -/
theorem memRead_rendering {a : Word} {s t : State} {b : Byte} (h : memRead a s = .ok (b, t)) :
    t.ppu.rendering = s.ppu.rendering := by
  rcases memRead_cases h with ⟨-, -, rfl⟩ | ⟨-, h⟩ | ⟨-, h⟩ | ⟨-, h⟩
  · rfl
  · rcases ppuRegRead_cases h with ⟨-, -, rfl⟩ | ⟨-, -, -, rfl⟩ | ⟨-, -, rfl⟩
    · rfl
    · rw [State.setPpu_ppu, Ppu.readData_frame]; rfl
    · rfl
  · unfold ioRead at h
    split at h
    · cases h; rfl
    · split at h
      · cases h; rfl
      · split at h <;> cases h <;> rfl
  · cases h; rfl

/-- A read is refused only at PPU register 7 while rendering. -/
theorem memRead_error {a : Word} {s : State} {r : Refusal} (h : memRead a s = .error r) :
    r = .ppuDataWhileRendering ∧ s.ppu.rendering = true ∧ 0x2000 ≤ a.toNat ∧ a.toNat < 0x4000 ∧
      a.toNat % 8 = 7 := by
  unfold memRead at h
  split at h
  · cases h
  · split at h
    · unfold ppuRegRead at h
      split at h
      · cases h
      · cases h
      · split at h
        · cases h; exact ⟨rfl, ‹_›, by omega, ‹_›, ‹_›⟩
        · cases h
      · cases h
    · split at h <;> cases h

/-- Outside rendering every read completes. -/
theorem memRead_ok (a : Word) {s : State} (h : s.ppu.rendering = false) :
    ∃ b t, memRead a s = .ok (b, t) := by
  cases hr : memRead a s with
  | ok x => exact ⟨x.1, x.2, rfl⟩
  | error r => have := (memRead_error hr).2.1; simp_all

/-- A read of RAM has no side effect (R61). -/
theorem memRead_ram {a : Word} {s : State} (h : a.toNat < 0x2000) :
    memRead a s = .ok (s.ram.read (a.toNat % 0x800), s) := by
  unfold memRead; rw [if_pos h]

/-- A read of the cartridge window has no side effect on the no-bank-switch cartridge. -/
theorem memRead_cart_nrom {a : Word} {s : State} (hn : s.Nrom) (h : 0x4018 ≤ a.toNat) :
    memRead a s =
      .ok (if 0x8000 ≤ a.toNat then s.cart.prg.read (s.cart.prgOffset a) else s.params.openBus, s) := by
  unfold memRead
  rw [if_neg (by omega), if_neg (by omega), if_neg (by omega)]
  simp only [cartRead, Cart.cpuRead_nrom hn]
  rfl

/-- A read of a plain address changes nothing, and it is what `peek` shows. -/
theorem memRead_plain {a : Word} {s : State} (hn : s.Nrom) (h : plainAddr a) :
    ∃ b, memRead a s = .ok (b, s) ∧ peek s a = some b := by
  rcases h with h | h
  · exact ⟨_, memRead_ram h, by simp [peek, memRead_ram h]⟩
  · exact ⟨_, memRead_cart_nrom hn h, by simp [peek, memRead_cart_nrom hn h]⟩

/-- A read never changes the cartridge's constants or the parameters. -/
theorem memRead_cart {a : Word} {s t : State} {b : Byte} (h : memRead a s = .ok (b, t)) :
    t.cart = { s.cart with regs := t.cart.regs } := by
  rcases memRead_cases h with ⟨-, -, rfl⟩ | ⟨-, h⟩ | ⟨-, h⟩ | ⟨-, h⟩
  · rfl
  · rcases ppuRegRead_cases h with ⟨-, -, rfl⟩ | ⟨-, -, -, rfl⟩ | ⟨-, -, rfl⟩ <;> rfl
  · unfold ioRead at h
    split at h
    · cases h; rfl
    · split at h
      · cases h; rfl
      · split at h <;> cases h <;> rfl
  · cases h; exact Cart.cpuRead_eq _ _ _

theorem Ppu.readData_wf {p : Ppu} (h : p.wf = true) (c : Cart) : (p.readData c).2.wf = true := by
  rw [Ppu.readData_frame]; exact h

/-- A read keeps the storage in form. -/
theorem memRead_wf {a : Word} {s t : State} {b : Byte} (h : memRead a s = .ok (b, t))
    (hs : s.storageWf = true) : t.storageWf = true := by
  simp only [State.storageWf, Bool.and_eq_true] at hs ⊢
  obtain ⟨⟨⟨⟨⟨h1, h2⟩, h3⟩, h4⟩, h5⟩, h6⟩ := hs
  rcases memRead_cases h with ⟨-, -, rfl⟩ | ⟨-, h⟩ | ⟨-, h⟩ | ⟨-, h⟩
  · exact ⟨⟨⟨⟨⟨h1, h2⟩, h3⟩, h4⟩, h5⟩, h6⟩
  · rcases ppuRegRead_cases h with ⟨-, -, rfl⟩ | ⟨-, -, -, rfl⟩ | ⟨-, -, rfl⟩
    · exact ⟨⟨⟨⟨⟨h1, h2⟩, h3⟩, h4⟩, h5⟩, h6⟩
    · exact ⟨⟨⟨⟨⟨h1, Ppu.readData_wf h2 _⟩, h3⟩, h4⟩, h5⟩, h6⟩
    · exact ⟨⟨⟨⟨⟨h1, h2⟩, h3⟩, h4⟩, h5⟩, h6⟩
  · unfold ioRead at h
    split at h
    · cases h; exact ⟨⟨⟨⟨⟨h1, h2⟩, h3⟩, h4⟩, h5⟩, h6⟩
    · split at h
      · cases h; exact ⟨⟨⟨⟨⟨h1, h2⟩, h3⟩, h4⟩, h5⟩, h6⟩
      · split at h <;> cases h <;> exact ⟨⟨⟨⟨⟨h1, h2⟩, h3⟩, h4⟩, h5⟩, h6⟩
  · cases h
    refine ⟨⟨⟨⟨⟨h1, h2⟩, h3⟩, h4⟩, ?_⟩, h6⟩
    simp only [State.setCart_cart]
    rw [Cart.cpuRead_eq]
    exact Cart.wf_regs h5 _

/-! ### Writes -/

/-- The bytes a DMA copies change nothing but OAM and what its reads change. -/
theorem dmaByte_ok {page i : Byte} {s t : State} (h : dmaByte page i s = .ok t) :
    ∃ b s1, memRead (word page i) s = .ok (b, s1) ∧
      t = s1.setPpu { s1.ppu with oam := s1.ppu.oam.write (s1.ppu.oamaddr + i).toNat b } := by
  unfold dmaByte at h
  split at h
  · cases h
  · next b s1 hr => cases h; exact ⟨b, s1, hr, rfl⟩

theorem dmaByte_error {page i : Byte} {s : State} {r : Refusal} (h : dmaByte page i s = .error r) :
    r = .ppuDataWhileRendering ∧ s.ppu.rendering = true := by
  unfold dmaByte at h
  split at h
  · next r' hr => cases h; exact ⟨(memRead_error hr).1, (memRead_error hr).2.1⟩
  · cases h

/-- A property of states that every read and every OAM cell write keeps holds after a DMA. -/
theorem dmaCopy_induct {P : State → Prop} {page : Byte}
    (hread : ∀ a s b t, P s → memRead a s = .ok (b, t) → P t)
    (hoam : ∀ (s : State) (i : Byte) (b : Byte), P s →
      P (s.setPpu { s.ppu with oam := s.ppu.oam.write i.toNat b }))
    {k : Nat} {s t : State} (hs : P s) (h : dmaCopy page k s = .ok t) : P t := by
  induction k generalizing t with
  | zero => cases h; exact hs
  | succ k ih =>
    unfold dmaCopy at h
    split at h
    · cases h
    · next s1 h1 =>
      obtain ⟨b, s2, hr, rfl⟩ := dmaByte_ok h
      exact hoam s2 _ b (hread _ _ _ _ (ih h1) hr)

theorem dmaCopy_same {page : Byte} {k : Nat} {s t : State} (h : dmaCopy page k s = .ok t) :
    SameButDevices s t :=
  dmaCopy_induct (P := fun t => SameButDevices s t)
    (fun _ _ _ _ hu ht => hu.trans (memRead_same ht)) (fun _ _ _ hu => hu.setPpu _) rfl h

theorem dmaCopy_rendering {page : Byte} {k : Nat} {s t : State} (h : dmaCopy page k s = .ok t) :
    t.ppu.rendering = s.ppu.rendering :=
  dmaCopy_induct (P := fun t => t.ppu.rendering = s.ppu.rendering)
    (fun a u b t hu ht => by rw [memRead_rendering ht, hu]) (fun u i b hu => hu) rfl h

theorem dmaCopy_error {page : Byte} {k : Nat} {s : State} {r : Refusal}
    (h : dmaCopy page k s = .error r) : r = .ppuDataWhileRendering ∧ s.ppu.rendering = true := by
  induction k with
  | zero => cases h
  | succ k ih =>
    unfold dmaCopy at h
    split at h
    · next r' h1 => cases h; exact ih h1
    · next s1 h1 =>
      have := dmaByte_error h
      exact ⟨this.1, dmaCopy_rendering h1 ▸ this.2⟩

/-- A write is refused only at PPU register 7, or by a DMA that reads it, while rendering. -/
theorem memWrite_error {a : Word} {v : Byte} {s : State} {r : Refusal}
    (h : memWrite a v s = .error r) : r = .ppuDataWhileRendering ∧ s.ppu.rendering = true := by
  unfold memWrite at h
  split at h
  · cases h
  · split at h
    · unfold ppuRegWrite at h
      split at h <;> try (cases h)
      split at h
      · cases h; exact ⟨rfl, ‹_›⟩
      · cases h
    · split at h
      · unfold ioWrite at h
        split at h
        · unfold oamDma at h
          split at h
          · next r' h1 => cases h; exact dmaCopy_error h1
          · cases h
        · split at h
          · cases h
          · split at h <;> cases h
      · cases h

/-- Outside rendering every write completes. -/
theorem memWrite_ok (a : Word) (v : Byte) {s : State} (h : s.ppu.rendering = false) :
    ∃ t, memWrite a v s = .ok t := by
  cases hr : memWrite a v s with
  | ok t => exact ⟨t, rfl⟩
  | error r => have := (memWrite_error hr).2; simp_all

/-- The cases of a PPU register write that is not refused. -/
theorem ppuRegWrite_cases {r : Nat} {v : Byte} {s t : State} (h : ppuRegWrite r v s = .ok t) :
    (r = 0 ∧ t = s.setPpu (s.ppu.writeCtrl v)) ∨ (r = 1 ∧ t = s.setPpu (s.ppu.writeMask v)) ∨
    (r = 3 ∧ t = s.setPpu (s.ppu.writeOamAddr v)) ∨
    (r = 4 ∧ t = s.setPpu (s.ppu.writeOamData v)) ∨
    (r = 5 ∧ t = s.setPpu (s.ppu.writeScroll v)) ∨ (r = 6 ∧ t = s.setPpu (s.ppu.writeAddr v)) ∨
    (r = 7 ∧ s.ppu.rendering = false ∧
      t = (s.setPpu (s.ppu.writeData s.cart v).1).setCart (s.ppu.writeData s.cart v).2) ∨
    (t = s) := by
  unfold ppuRegWrite at h
  split at h
  case h_7 =>
    split at h
    · cases h
    · next hr =>
      cases h
      exact .inr (.inr (.inr (.inr (.inr (.inr (.inl ⟨rfl, Bool.eq_false_iff.mpr hr, rfl⟩))))))
  all_goals cases h; simp

/-- The cases of a write that is not refused. -/
theorem memWrite_cases {a : Word} {v : Byte} {s t : State} (h : memWrite a v s = .ok t) :
    (a.toNat < 0x2000 ∧ t = s.setRam (s.ram.write (a.toNat % 0x800) v)) ∨
    ((0x2000 ≤ a.toNat ∧ a.toNat < 0x4000) ∧ ppuRegWrite (a.toNat % 8) v s = .ok t) ∨
    (a = 0x4014#16 ∧ ∃ s1, dmaCopy v 256 s = .ok s1 ∧ t = s1.setDmaExtra (513 + s1.cyc % 2)) ∨
    (a = 0x4016#16 ∧ t = s.setPads (s.pads.writeStrobe v)) ∨
    (a = 0x4017#16 ∧ t = s.setApu (s.apu.writeFrameCounter v)) ∨
    ((0x4000 ≤ a.toNat ∧ a.toNat < 0x4018) ∧ t = s) ∨
    (0x4018 ≤ a.toNat ∧ t = s.setCart (s.cart.cpuWrite a v)) := by
  unfold memWrite at h
  split at h
  · cases h; exact .inl ⟨‹_›, rfl⟩
  · split at h
    · exact .inr (.inl ⟨⟨by omega, ‹_›⟩, h⟩)
    · split at h
      · unfold ioWrite at h
        split at h
        · next ha =>
          unfold oamDma at h
          split at h
          · cases h
          · next s1 h1 => cases h; exact .inr (.inr (.inl ⟨ha, s1, h1, rfl⟩))
        · split at h
          · cases h; exact .inr (.inr (.inr (.inl ⟨‹_›, rfl⟩)))
          · split at h
            · cases h; exact .inr (.inr (.inr (.inr (.inl ⟨‹_›, rfl⟩))))
            · cases h; exact .inr (.inr (.inr (.inr (.inr (.inl ⟨⟨by omega, ‹_›⟩, rfl⟩)))))
      · cases h; exact .inr (.inr (.inr (.inr (.inr (.inr ⟨by omega, rfl⟩)))))

/-- A write changes at most the RAM, the device records and `dma_extra`. -/
theorem memWrite_same {a : Word} {v : Byte} {s t : State} (h : memWrite a v s = .ok t) :
    SameButBus s t := by
  rcases memWrite_cases h with ⟨-, rfl⟩ | ⟨-, h⟩ | ⟨-, s1, h1, ht⟩ | ⟨-, rfl⟩ | ⟨-, rfl⟩ |
    ⟨-, rfl⟩ | ⟨-, rfl⟩
  · rfl
  · rcases ppuRegWrite_cases h with ⟨-, rfl⟩ | ⟨-, rfl⟩ | ⟨-, rfl⟩ | ⟨-, rfl⟩ | ⟨-, rfl⟩ |
      ⟨-, rfl⟩ | ⟨-, -, rfl⟩ | rfl <;>
    simp only [SameButBus, State.setPpu, State.setCart]
  · rw [ht]; exact (dmaCopy_same h1).setDmaExtra _
  all_goals rfl

/-- A write outside RAM leaves the RAM alone. -/
theorem memWrite_ram_other {a : Word} {v : Byte} {s t : State} (h : memWrite a v s = .ok t)
    (ha : 0x2000 ≤ a.toNat) : t.ram = s.ram := by
  rcases memWrite_cases h with ⟨h0, -⟩ | ⟨-, h⟩ | ⟨-, s1, h1, rfl⟩ | ⟨-, rfl⟩ | ⟨-, rfl⟩ |
    ⟨-, rfl⟩ | ⟨-, rfl⟩
  · omega
  · rcases ppuRegWrite_cases h with ⟨-, rfl⟩ | ⟨-, rfl⟩ | ⟨-, rfl⟩ | ⟨-, rfl⟩ | ⟨-, rfl⟩ |
      ⟨-, rfl⟩ | ⟨-, -, rfl⟩ | rfl <;> rfl
  · exact (dmaCopy_same h1).ram
  all_goals rfl

/-- A write to RAM is a write of the cell behind the mirror (R61). -/
theorem memWrite_ram {a : Word} (v : Byte) {s : State} (h : a.toNat < 0x2000) :
    memWrite a v s = .ok (s.setRam (s.ram.write (a.toNat % 0x800) v)) := by
  unfold memWrite; rw [if_pos h]

theorem Ppu.writeScroll_frame (p : Ppu) (v : Byte) :
    p.writeScroll v = { p with t := (p.writeScroll v).t, x := (p.writeScroll v).x,
                               w := (p.writeScroll v).w } := by
  unfold Ppu.writeScroll; split <;> rfl

theorem Ppu.writeAddr_frame (p : Ppu) (v : Byte) :
    p.writeAddr v = { p with t := (p.writeAddr v).t, v := (p.writeAddr v).v,
                             w := (p.writeAddr v).w } := by
  unfold Ppu.writeAddr; split <;> rfl

theorem Ppu.writeData_wf {p : Ppu} {c : Cart} (hp : p.wf = true) (hc : c.wf = true) (v : Byte) :
    (p.writeData c v).1.wf = true ∧ (p.writeData c v).2.wf = true :=
  ppuWrite_wf hp hc p.dataAddr v

theorem Apu.writeFrameCounter_wf (u : Apu) (v : Byte) : (u.writeFrameCounter v).wf = true := by
  have key : ∀ b : Bool, 0 < if b = true then 37282 else 29830 := by decide
  rw [Apu.wf, decide_eq_true_eq]
  exact key _

/-- A PPU register write keeps the storage in form. -/
theorem ppuRegWrite_wf {r : Nat} {v : Byte} {s t : State} (h : ppuRegWrite r v s = .ok t)
    (hs : s.storageWf = true) : t.storageWf = true := by
  simp only [State.storageWf, Bool.and_eq_true] at hs ⊢
  obtain ⟨⟨⟨⟨⟨h1, h2⟩, h3⟩, h4⟩, h5⟩, h6⟩ := hs
  rcases ppuRegWrite_cases h with ⟨-, rfl⟩ | ⟨-, rfl⟩ | ⟨-, rfl⟩ | ⟨-, rfl⟩ | ⟨-, rfl⟩ |
    ⟨-, rfl⟩ | ⟨-, -, rfl⟩ | rfl
  · exact ⟨⟨⟨⟨⟨h1, h2⟩, h3⟩, h4⟩, h5⟩, h6⟩
  · exact ⟨⟨⟨⟨⟨h1, h2⟩, h3⟩, h4⟩, h5⟩, h6⟩
  · exact ⟨⟨⟨⟨⟨h1, h2⟩, h3⟩, h4⟩, h5⟩, h6⟩
  · exact ⟨⟨⟨⟨⟨h1, Ppu.wf_oam h2 _ _⟩, h3⟩, h4⟩, h5⟩, h6⟩
  · refine ⟨⟨⟨⟨⟨h1, ?_⟩, h3⟩, h4⟩, h5⟩, h6⟩
    rw [State.setPpu_ppu, Ppu.writeScroll_frame]; exact h2
  · refine ⟨⟨⟨⟨⟨h1, ?_⟩, h3⟩, h4⟩, h5⟩, h6⟩
    rw [State.setPpu_ppu, Ppu.writeAddr_frame]; exact h2
  · exact ⟨⟨⟨⟨⟨h1, (Ppu.writeData_wf h2 h5 v).1⟩, h3⟩, h4⟩, (Ppu.writeData_wf h2 h5 v).2⟩, h6⟩
  · exact ⟨⟨⟨⟨⟨h1, h2⟩, h3⟩, h4⟩, h5⟩, h6⟩

/-- A write keeps the storage in form. -/
theorem memWrite_wf {a : Word} {v : Byte} {s t : State} (h : memWrite a v s = .ok t)
    (hs : s.storageWf = true) : t.storageWf = true := by
  rcases memWrite_cases h with ⟨h0, rfl⟩ | ⟨-, h⟩ | ⟨-, s1, h1, rfl⟩ | ⟨-, rfl⟩ | ⟨-, rfl⟩ |
    ⟨-, rfl⟩ | ⟨-, rfl⟩
  · simp only [State.storageWf, Bool.and_eq_true] at hs ⊢
    obtain ⟨⟨⟨⟨⟨h1, h2⟩, h3⟩, h4⟩, h5⟩, h6⟩ := hs
    exact ⟨⟨⟨⟨⟨Memory.wf_write h1 (Nat.mod_lt _ (by omega)) _, h2⟩, h3⟩, h4⟩, h5⟩, h6⟩
  · exact ppuRegWrite_wf h hs
  · have hw := dmaCopy_induct (P := fun t => t.storageWf = true)
      (fun a u b t hu ht => memRead_wf ht hu)
      (fun u i b hu => by
        simp only [State.storageWf, Bool.and_eq_true] at hu ⊢
        obtain ⟨⟨⟨⟨⟨h1, h2⟩, h3⟩, h4⟩, h5⟩, h6⟩ := hu
        exact ⟨⟨⟨⟨⟨h1, Ppu.wf_oam h2 _ _⟩, h3⟩, h4⟩, h5⟩, h6⟩) hs h1
    exact hw
  · exact hs
  · simp only [State.storageWf, Bool.and_eq_true] at hs ⊢
    obtain ⟨⟨⟨⟨⟨h1, h2⟩, h3⟩, h4⟩, h5⟩, h6⟩ := hs
    exact ⟨⟨⟨⟨⟨h1, h2⟩, h3⟩, Apu.writeFrameCounter_wf _ _⟩, h5⟩, h6⟩
  · exact hs
  · simp only [State.storageWf, Bool.and_eq_true] at hs ⊢
    obtain ⟨⟨⟨⟨⟨h1, h2⟩, h3⟩, h4⟩, h5⟩, h6⟩ := hs
    refine ⟨⟨⟨⟨⟨h1, h2⟩, h3⟩, h4⟩, ?_⟩, h6⟩
    rw [State.setCart_cart, Cart.cpuWrite_eq]; exact Cart.wf_regs h5 _

end Sys2Proof.Machine
end

