-- ==== Sys2Proof/Laws/Ops.lean ====
section
/-! SUPPORT. The stack and page zero are RAM, so the shared operations over them are the bus accesses the
spec writes them with; and what each shape of instruction can answer. -/

namespace Sys2Proof.Machine

/-! ### Page zero and the stack through the bus -/

theorem zext16_toNat (b : Byte) : (zext16 b).toNat = b.toNat := by
  have := b.isLt
  simp only [zext16, BitVec.toNat_setWidth]
  omega

/-- `MemReadZP16(p)` is two bus reads, low byte first, both in page zero (00_scope.md R11). -/
theorem zpRead16_bus (p : Byte) (s : State) :
    ∃ l h, memRead (zext16 p) s = .ok (l, s) ∧ memRead (zext16 (p + 1#8)) s = .ok (h, s) ∧
      zpRead16 p s = word h l := by
  have h0 := zext16_toNat p
  have h1 := zext16_toNat (p + 1#8)
  have b0 := p.isLt
  have b1 := (p + 1#8).isLt
  refine ⟨_, _, memRead_ram (by omega), memRead_ram (by omega), ?_⟩
  rw [h0, h1, Nat.mod_eq_of_lt (by omega), Nat.mod_eq_of_lt (by omega)]
  rfl

/-- The address `$0100 + S`. -/
theorem stackAddr_toNat (sp : Byte) : (0x0100#16 + zext16 sp).toNat = stackCell sp := by
  have := sp.isLt
  rw [BitVec.toNat_add, zext16_toNat]
  simp only [stackCell, BitVec.toNat_ofNat]
  omega

/-- `Push8(v)` is a bus write at `$0100 + S`, then the decrement of `S` (R133). -/
theorem push8_bus (v : Byte) (s : State) :
    ∃ t, memWrite (0x0100#16 + zext16 s.sp) v s = .ok t ∧ push8 v s = t.setSp (s.sp - 1#8) := by
  have ha := stackAddr_toNat s.sp
  have hb := s.sp.isLt
  have hc : stackCell s.sp = 0x100 + s.sp.toNat := rfl
  refine ⟨_, memWrite_ram v (by omega), ?_⟩
  rw [ha, Nat.mod_eq_of_lt (by omega)]
  rfl

/-- `Pull8()` is the increment of `S`, then a bus read at `$0100 + S` (R134). -/
theorem pull8_bus (s : State) :
    memRead (0x0100#16 + zext16 (s.sp + 1#8)) (s.setSp (s.sp + 1#8)) = .ok (pull8 s) := by
  have ha := stackAddr_toNat (s.sp + 1#8)
  have hb := (s.sp + 1#8).isLt
  have hc : stackCell (s.sp + 1#8) = 0x100 + (s.sp + 1#8).toNat := rfl
  rw [memRead_ram (by omega), ha, Nat.mod_eq_of_lt (by omega)]
  rfl

theorem stackCell_lt (sp : Byte) : stackCell sp < 0x800 := by
  have := sp.isLt
  simp only [stackCell]; omega

/-! ### What the shared operations leave alone -/

/-- A push changes the RAM and `S` only. -/
theorem push8_eq (v : Byte) (s : State) :
    push8 v s = { s with ram := s.ram.write (stackCell s.sp) v, sp := s.sp - 1#8 } := rfl

/-- A pull changes `S` only. -/
theorem pull8_eq (s : State) :
    pull8 s = (s.ram.read (stackCell (s.sp + 1#8)), { s with sp := s.sp + 1#8 }) := rfl

/-- The end of an instruction changes `PC`, `wait` and `dma_extra` only. -/
theorem finish_eq (len n : Nat) (s : State) :
    finish len n s =
      { s with pc := s.pc + BitVec.ofNat 16 len, wait := n + s.dmaExtra - 1, dmaExtra := 0 } := rfl

theorem charge_eq (n : Nat) (s : State) :
    charge n s = { s with wait := n + s.dmaExtra - 1, dmaExtra := 0 } := rfl

/-- Reading a vector on the no-bank-switch cartridge changes nothing. -/
theorem readVector_nrom {s : State} (hn : s.Nrom) (vec : Word) :
    readVector vec s =
      (word (s.cart.cpuRead s.params.openBus (vec + 1#16)).1 (s.cart.cpuRead s.params.openBus vec).1, s) := by
  have h : ∀ a, (s.cart.cpuRead s.params.openBus a).2 = s.cart := fun a => by rw [Cart.cpuRead_nrom hn]
  simp only [readVector, cartRead, h, State.setCart_params, State.setCart_cart]
  rfl

/-! ### The shapes of the instructions -/

/-- What a read instruction answers when its operand is readable. -/
theorem readInstr_next {o : ReadOperand} {f : Byte → State → State} {s s1 : State} {m : Byte}
    (h : loadOperand o s = .ok (m, s1)) :
    readInstr o f s = .next (finish (readLength o) (readCost o s) (f m s1)) := by
  simp only [readInstr, h]

/-- The one case in which a read instruction answers a next state. -/
theorem readInstr_cases {o : ReadOperand} {f : Byte → State → State} {s t : State}
    (h : readInstr o f s = .next t) :
    ∃ m s1, loadOperand o s = .ok (m, s1) ∧ t = finish (readLength o) (readCost o s) (f m s1) := by
  unfold readInstr at h
  split at h
  · cases h
  · next m s1 h1 => cases h; exact ⟨m, s1, h1, rfl⟩

theorem storeInstr_next {m : MemMode} {v : Byte} {s s1 : State}
    (h : memWrite (effAddr m s) v s = .ok s1) :
    storeInstr m v s = .next (finish (memLength m) (writeCycles m) s1) := by
  simp only [storeInstr, h]

theorem storeInstr_cases {m : MemMode} {v : Byte} {s t : State} (h : storeInstr m v s = .next t) :
    ∃ s1, memWrite (effAddr m s) v s = .ok s1 ∧ t = finish (memLength m) (writeCycles m) s1 := by
  unfold storeInstr at h
  split at h
  · cases h
  · next s1 h1 => cases h; exact ⟨s1, h1, rfl⟩

theorem modifyInstr_next {o : ModOperand} {n : Nat} {f : Byte → Flags → Byte × Flags}
    {s s1 s2 : State} {m : Byte} (h : loadTarget o s = .ok (m, s1))
    (h' : storeResult o s (f m s1.p).1 s1 = .ok s2) :
    modifyInstr o n f s = .next (finish (modLength o) n (s2.setP (f m s1.p).2)) := by
  simp only [modifyInstr, h, h']

theorem modifyInstr_cases {o : ModOperand} {n : Nat} {f : Byte → Flags → Byte × Flags}
    {s t : State} (h : modifyInstr o n f s = .next t) :
    ∃ m s1 s2, loadTarget o s = .ok (m, s1) ∧ storeResult o s (f m s1.p).1 s1 = .ok s2 ∧
      t = finish (modLength o) n (s2.setP (f m s1.p).2) := by
  unfold modifyInstr at h
  split at h
  · cases h
  · next m s1 h1 =>
    split at h
    · cases h
    · next s2 h2 => cases h; exact ⟨m, s1, s2, h1, h2, rfl⟩

/-- Outside rendering an operand is readable, and reading it leaves rendering off. -/
theorem loadOperand_ok (o : ReadOperand) {s : State} (h : s.ppu.rendering = false) :
    ∃ m s1, loadOperand o s = .ok (m, s1) ∧ s1.ppu.rendering = false := by
  cases o with
  | imm b => exact ⟨b, s, rfl, h⟩
  | mem m =>
    obtain ⟨b, t, ht⟩ := memRead_ok (effAddr m s) h
    exact ⟨b, t, ht, by rw [memRead_rendering ht, h]⟩

theorem loadTarget_ok (o : ModOperand) {s : State} (h : s.ppu.rendering = false) :
    ∃ m s1, loadTarget o s = .ok (m, s1) ∧ s1.ppu.rendering = false := by
  cases o with
  | acc => exact ⟨s.a, s, rfl, h⟩
  | mem m =>
    obtain ⟨b, t, ht⟩ := memRead_ok (effAddr m s) h
    exact ⟨b, t, ht, by rw [memRead_rendering ht, h]⟩

theorem storeResult_ok (o : ModOperand) (s0 : State) (v : Byte) {s : State}
    (h : s.ppu.rendering = false) : ∃ t, storeResult o s0 v s = .ok t := by
  cases o with
  | acc => exact ⟨s.setA v, rfl⟩
  | mem m => exact memWrite_ok (effAddr m s0) v h

end Sys2Proof.Machine
end

