-- ==== Sys2Proof/Laws/Frames.lean ====
section
/-! SUPPORT. What a bus access leaves alone inside the device records: all of it, one field a line, so
that a proof about an instruction cites a field and does not look into the access. -/

namespace Sys2Proof.Machine

/-- What a read leaves unchanged, RAM and the CPU aside (`SameButDevices`). -/
structure ReadFrame (s t : State) : Prop where
  vram : t.ppu.vram = s.ppu.vram
  pal : t.ppu.pal = s.ppu.pal
  oam : t.ppu.oam = s.ppu.oam
  ctrl : t.ppu.ctrl = s.ppu.ctrl
  mask : t.ppu.mask = s.ppu.mask
  tReg : t.ppu.t = s.ppu.t
  x : t.ppu.x = s.ppu.x
  oamaddr : t.ppu.oamaddr = s.ppu.oamaddr
  scanline : t.ppu.scanline = s.ppu.scanline
  dot : t.ppu.dot = s.ppu.dot
  odd : t.ppu.odd = s.ppu.odd
  spr0 : t.ppu.spr0 = s.ppu.spr0
  sprovf : t.ppu.sprovf = s.ppu.sprovf
  vblank : t.ppu.vblank = true → s.ppu.vblank = true
  mode : t.apu.mode = s.apu.mode
  inhibit : t.apu.inhibit = s.apu.inhibit
  fc : t.apu.fc = s.apu.fc
  pad0 : t.pads.pad0 = s.pads.pad0
  pad1 : t.pads.pad1 = s.pads.pad1
  strobe : t.pads.strobe = s.pads.strobe
  cart : t.cart = { s.cart with regs := t.cart.regs }

theorem ReadFrame.refl (s : State) : ReadFrame s s := by
  constructor <;> first | rfl | exact id

theorem ReadFrame.trans {s t u : State} (h : ReadFrame s t) (h' : ReadFrame t u) : ReadFrame s u where
  vram := h'.vram.trans h.vram
  pal := h'.pal.trans h.pal
  oam := h'.oam.trans h.oam
  ctrl := h'.ctrl.trans h.ctrl
  mask := h'.mask.trans h.mask
  tReg := h'.tReg.trans h.tReg
  x := h'.x.trans h.x
  oamaddr := h'.oamaddr.trans h.oamaddr
  scanline := h'.scanline.trans h.scanline
  dot := h'.dot.trans h.dot
  odd := h'.odd.trans h.odd
  spr0 := h'.spr0.trans h.spr0
  sprovf := h'.sprovf.trans h.sprovf
  vblank := fun hu => h.vblank (h'.vblank hu)
  mode := h'.mode.trans h.mode
  inhibit := h'.inhibit.trans h.inhibit
  fc := h'.fc.trans h.fc
  pad0 := h'.pad0.trans h.pad0
  pad1 := h'.pad1.trans h.pad1
  strobe := h'.strobe.trans h.strobe
  cart := by rw [h'.cart, h.cart]

/-- Every read has this frame. -/
theorem memRead_frame {a : Word} {s t : State} {b : Byte} (h : memRead a s = .ok (b, t)) :
    ReadFrame s t := by
  rcases memRead_cases h with ⟨-, -, rfl⟩ | ⟨-, h⟩ | ⟨-, h⟩ | ⟨-, h⟩
  · exact .refl _
  · rcases ppuRegRead_cases h with ⟨-, -, rfl⟩ | ⟨-, -, -, rfl⟩ | ⟨-, -, rfl⟩
    · constructor <;> first | rfl | simp [Ppu.afterStatusRead]
    · constructor <;> first | rfl | (rw [State.setPpu_ppu, Ppu.readData_frame]; done) | (rw [State.setPpu_ppu, Ppu.readData_frame]; exact id)
    · exact .refl _
  · unfold ioRead at h
    split at h
    · cases h; constructor <;> first | rfl | exact id
    · split at h
      · cases h; constructor <;> first | rfl | exact id
      · split at h
        · cases h; constructor <;> first | rfl | exact id
        · cases h; exact .refl _
  · cases h
    constructor
    case cart => exact Cart.cpuRead_eq s.cart s.params.openBus a
    all_goals first | rfl | exact id

/-- What a write leaves unchanged, RAM and the CPU aside (`SameButBus`). -/
structure WriteFrame (s t : State) : Prop where
  scanline : t.ppu.scanline = s.ppu.scanline
  dot : t.ppu.dot = s.ppu.dot
  odd : t.ppu.odd = s.ppu.odd
  spr0 : t.ppu.spr0 = s.ppu.spr0
  sprovf : t.ppu.sprovf = s.ppu.sprovf
  vblank : t.ppu.vblank = true → s.ppu.vblank = true
  pad0 : t.pads.pad0 = s.pads.pad0
  pad1 : t.pads.pad1 = s.pads.pad1
  cart : t.cart = { s.cart with regs := t.cart.regs, chr := t.cart.chr }
  rom : s.cart.chrRam = false → t.cart.chr = s.cart.chr

theorem WriteFrame.refl (s : State) : WriteFrame s s := by
  constructor <;> first | rfl | exact id | exact fun _ => rfl

theorem WriteFrame.trans {s t u : State} (h : WriteFrame s t) (h' : WriteFrame t u) :
    WriteFrame s u where
  scanline := h'.scanline.trans h.scanline
  dot := h'.dot.trans h.dot
  odd := h'.odd.trans h.odd
  spr0 := h'.spr0.trans h.spr0
  sprovf := h'.sprovf.trans h.sprovf
  vblank := fun hu => h.vblank (h'.vblank hu)
  pad0 := h'.pad0.trans h.pad0
  pad1 := h'.pad1.trans h.pad1
  cart := by rw [h'.cart, h.cart]
  rom := fun hr => (h'.rom (by rw [h.cart]; exact hr)).trans (h.rom hr)

theorem ReadFrame.write {s t : State} (h : ReadFrame s t) : WriteFrame s t where
  scanline := h.scanline
  dot := h.dot
  odd := h.odd
  spr0 := h.spr0
  sprovf := h.sprovf
  vblank := h.vblank
  pad0 := h.pad0
  pad1 := h.pad1
  cart := by rw [h.cart]
  rom := fun _ => by rw [h.cart]

theorem Cart.chrWrite_frame (c : Cart) (a : BitVec 14) (v : Byte) :
    c.chrWrite a v = { c with chr := (c.chrWrite a v).chr } ∧
      (c.chrRam = false → (c.chrWrite a v).chr = c.chr) := by
  unfold Cart.chrWrite
  split
  · next hr =>
    refine ⟨?_, fun hf => by rw [hf] at hr; cases hr⟩
    split
    · rfl
    · split <;> rfl
  · exact ⟨rfl, fun _ => rfl⟩

/-- A $2007 write changes one memory of the PPU or CHR-RAM, and `ppu.v`. -/
theorem Ppu.writeData_frame (p : Ppu) (c : Cart) (v : Byte) :
    (p.writeData c v).1 = { p with vram := (p.writeData c v).1.vram, pal := (p.writeData c v).1.pal,
                                   v := (p.writeData c v).1.v } ∧
      (p.writeData c v).2 = { c with chr := (p.writeData c v).2.chr } ∧
      (c.chrRam = false → (p.writeData c v).2.chr = c.chr) := by
  unfold Ppu.writeData ppuWrite
  dsimp only
  split
  · exact ⟨rfl, Cart.chrWrite_frame _ _ _⟩
  · split <;> exact ⟨rfl, rfl, fun _ => rfl⟩

theorem ppuRegWrite_frame {r : Nat} {v : Byte} {s t : State} (h : ppuRegWrite r v s = .ok t) :
    WriteFrame s t := by
  rcases ppuRegWrite_cases h with ⟨-, rfl⟩ | ⟨-, rfl⟩ | ⟨-, rfl⟩ | ⟨-, rfl⟩ | ⟨-, rfl⟩ |
    ⟨-, rfl⟩ | ⟨-, -, rfl⟩ | rfl
  case inr.inr.inr.inr.inl =>
    constructor <;>
      first | rfl | exact fun _ => rfl | (rw [State.setPpu_ppu, Ppu.writeScroll_frame]; done) | (rw [State.setPpu_ppu, Ppu.writeScroll_frame]; exact id)
  case inr.inr.inr.inr.inr.inl =>
    constructor <;>
      first | rfl | exact fun _ => rfl | (rw [State.setPpu_ppu, Ppu.writeAddr_frame]; done) | (rw [State.setPpu_ppu, Ppu.writeAddr_frame]; exact id)
  case inr.inr.inr.inr.inr.inr.inl =>
    obtain ⟨hp, hc, hr⟩ := Ppu.writeData_frame s.ppu s.cart v
    constructor
    case cart => simp only [State.setCart_cart]; rw [hc]
    case rom => exact hr
    all_goals
      first | rfl | (simp only [State.setCart_ppu, State.setPpu_ppu]; rw [hp]; first | done | exact id)
  case inr.inr.inr.inr.inr.inr.inr => exact .refl _
  all_goals constructor <;> first | rfl | exact id | exact fun _ => rfl

/-- A DMA changes what a read may change, and OAM. -/
theorem dmaCopy_frame {page : Byte} {k : Nat} {s t : State} (h : dmaCopy page k s = .ok t) :
    ReadFrame s { t with ppu := { t.ppu with oam := s.ppu.oam } } := by
  refine dmaCopy_induct (P := fun t => ReadFrame s { t with ppu := { t.ppu with oam := s.ppu.oam } })
    ?_ ?_ (.refl s) h
  · intro a u b w hu hw
    have hf := memRead_frame hw
    exact hu.trans
      { vram := hf.vram, pal := hf.pal, oam := rfl, ctrl := hf.ctrl, mask := hf.mask, tReg := hf.tReg,
        x := hf.x, oamaddr := hf.oamaddr, scanline := hf.scanline, dot := hf.dot, odd := hf.odd,
        spr0 := hf.spr0, sprovf := hf.sprovf, vblank := hf.vblank, mode := hf.mode,
        inhibit := hf.inhibit, fc := hf.fc, pad0 := hf.pad0, pad1 := hf.pad1, strobe := hf.strobe,
        cart := hf.cart }
  · intro u i b hu; exact hu

/-- A write of $4014 is the DMA (R296). -/
theorem memWrite_dma (v : Byte) (s : State) : memWrite 0x4014#16 v s = oamDma v s := by
  simp [memWrite, ioWrite]

/-- A DMA sets the stall and leaves `ppu.oamaddr`, whatever page it copies (R296). -/
theorem oamDma_stall {v : Byte} {s t : State} (h : oamDma v s = .ok t) :
    t.dmaExtra = 513 + s.cyc % 2 ∧ t.ppu.oamaddr = s.ppu.oamaddr := by
  unfold oamDma at h
  split at h
  · cases h
  · next s1 h1 =>
    cases h
    have hs := dmaCopy_same h1
    exact ⟨by rw [State.setDmaExtra_dmaExtra, hs], (dmaCopy_frame h1).oamaddr⟩

/-- Every write has this frame. -/
theorem memWrite_frame {a : Word} {v : Byte} {s t : State} (h : memWrite a v s = .ok t) :
    WriteFrame s t := by
  rcases memWrite_cases h with ⟨-, rfl⟩ | ⟨-, h⟩ | ⟨-, s1, h1, rfl⟩ | ⟨-, rfl⟩ | ⟨-, rfl⟩ |
    ⟨-, rfl⟩ | ⟨-, rfl⟩
  · constructor <;> first | rfl | exact id | exact fun _ => rfl
  · exact ppuRegWrite_frame h
  · have hf := (dmaCopy_frame h1).write
    exact { scanline := hf.scanline, dot := hf.dot, odd := hf.odd, spr0 := hf.spr0,
            sprovf := hf.sprovf, vblank := hf.vblank, pad0 := hf.pad0, pad1 := hf.pad1,
            cart := hf.cart, rom := hf.rom }
  · unfold Pads.writeStrobe
    constructor <;>
      first | rfl | exact id | exact fun _ => rfl | (simp only [State.setPads_pads]; split <;> rfl)
  · constructor <;> first | rfl | exact id | exact fun _ => rfl
  · exact .refl _
  · unfold Cart.cpuWrite
    constructor <;>
      first | rfl | exact id | exact fun _ => rfl |
        (simp only [State.setCart_cart]; split <;> first | rfl | exact fun _ => rfl)

end Sys2Proof.Machine
end

