-- ==== Sys2Proof/Laws/PerInstr.lean ====
section
/-! SUPPORT. One lemma per constructor of `Instr`, for the case splits of the statements about every
instruction. Family `HeadByte`: a well-formed instruction's encoding is its opcode byte followed by as many
operand bytes as its length says, one to three bytes in all, and the opcode table has at that byte a row
of the same length (30_encoding.md R100, R101). -/

namespace Sys2Proof.Laws.HeadByte

/-- The number of operand bytes of a row of the opcode table. -/
def rowOperands : OpcodeRow → Nat
  | .f1 _ => 0
  | .f2 _ => 1
  | .f3 _ => 2

def Statement (i : Instr) : Prop :=
  i.wf = true → encode i = i.opcode :: i.operandBytes ∧ i.length = 1 + rowOperands (opcodeRow i.opcode) ∧
    i.length ≤ 3

theorem lda (m : AluForm) : Statement (.lda m) := by
  cases m <;> exact fun _ => ⟨rfl, rfl, Nat.le_of_ble_eq_true rfl⟩

theorem ldx (m : LdxForm) : Statement (.ldx m) := by
  cases m <;> exact fun _ => ⟨rfl, rfl, Nat.le_of_ble_eq_true rfl⟩

theorem ldy (m : LdyForm) : Statement (.ldy m) := by
  cases m <;> exact fun _ => ⟨rfl, rfl, Nat.le_of_ble_eq_true rfl⟩

theorem sta (m : StaForm) : Statement (.sta m) := by
  cases m <;> exact fun _ => ⟨rfl, rfl, Nat.le_of_ble_eq_true rfl⟩

theorem stx (m : StxForm) : Statement (.stx m) := by
  cases m <;> exact fun _ => ⟨rfl, rfl, Nat.le_of_ble_eq_true rfl⟩

theorem sty (m : StyForm) : Statement (.sty m) := by
  cases m <;> exact fun _ => ⟨rfl, rfl, Nat.le_of_ble_eq_true rfl⟩

theorem tax : Statement .tax := fun _ => ⟨rfl, rfl, by decide⟩

theorem tay : Statement .tay := fun _ => ⟨rfl, rfl, by decide⟩

theorem txa : Statement .txa := fun _ => ⟨rfl, rfl, by decide⟩

theorem tya : Statement .tya := fun _ => ⟨rfl, rfl, by decide⟩

theorem tsx : Statement .tsx := fun _ => ⟨rfl, rfl, by decide⟩

theorem txs : Statement .txs := fun _ => ⟨rfl, rfl, by decide⟩

theorem adc (m : AluForm) : Statement (.adc m) := by
  cases m <;> exact fun _ => ⟨rfl, rfl, Nat.le_of_ble_eq_true rfl⟩

theorem sbc (m : AluForm) : Statement (.sbc m) := by
  cases m <;> exact fun _ => ⟨rfl, rfl, Nat.le_of_ble_eq_true rfl⟩

theorem and (m : AluForm) : Statement (.and m) := by
  cases m <;> exact fun _ => ⟨rfl, rfl, Nat.le_of_ble_eq_true rfl⟩

theorem ora (m : AluForm) : Statement (.ora m) := by
  cases m <;> exact fun _ => ⟨rfl, rfl, Nat.le_of_ble_eq_true rfl⟩

theorem eor (m : AluForm) : Statement (.eor m) := by
  cases m <;> exact fun _ => ⟨rfl, rfl, Nat.le_of_ble_eq_true rfl⟩

theorem cmp (m : AluForm) : Statement (.cmp m) := by
  cases m <;> exact fun _ => ⟨rfl, rfl, Nat.le_of_ble_eq_true rfl⟩

theorem cpx (m : CpForm) : Statement (.cpx m) := by
  cases m <;> exact fun _ => ⟨rfl, rfl, Nat.le_of_ble_eq_true rfl⟩

theorem cpy (m : CpForm) : Statement (.cpy m) := by
  cases m <;> exact fun _ => ⟨rfl, rfl, Nat.le_of_ble_eq_true rfl⟩

theorem bit (m : BitForm) : Statement (.bit m) := by
  cases m <;> exact fun _ => ⟨rfl, rfl, Nat.le_of_ble_eq_true rfl⟩

theorem inc (m : IncForm) : Statement (.inc m) := by
  cases m <;> exact fun _ => ⟨rfl, rfl, Nat.le_of_ble_eq_true rfl⟩

theorem inx : Statement .inx := fun _ => ⟨rfl, rfl, by decide⟩

theorem iny : Statement .iny := fun _ => ⟨rfl, rfl, by decide⟩

theorem dec (m : IncForm) : Statement (.dec m) := by
  cases m <;> exact fun _ => ⟨rfl, rfl, Nat.le_of_ble_eq_true rfl⟩

theorem dex : Statement .dex := fun _ => ⟨rfl, rfl, by decide⟩

theorem dey : Statement .dey := fun _ => ⟨rfl, rfl, by decide⟩

theorem asl (m : ShiftForm) : Statement (.asl m) := by
  cases m <;> exact fun _ => ⟨rfl, rfl, Nat.le_of_ble_eq_true rfl⟩

theorem lsr (m : ShiftForm) : Statement (.lsr m) := by
  cases m <;> exact fun _ => ⟨rfl, rfl, Nat.le_of_ble_eq_true rfl⟩

theorem rol (m : ShiftForm) : Statement (.rol m) := by
  cases m <;> exact fun _ => ⟨rfl, rfl, Nat.le_of_ble_eq_true rfl⟩

theorem ror (m : ShiftForm) : Statement (.ror m) := by
  cases m <;> exact fun _ => ⟨rfl, rfl, Nat.le_of_ble_eq_true rfl⟩

theorem jmp (m : JmpForm) : Statement (.jmp m) := by
  cases m <;> exact fun _ => ⟨rfl, rfl, Nat.le_of_ble_eq_true rfl⟩

theorem jsr (w : Word) : Statement (.jsr w) := fun _ => ⟨rfl, rfl, Nat.le_of_ble_eq_true rfl⟩

theorem rts : Statement .rts := fun _ => ⟨rfl, rfl, by decide⟩

theorem bcc (off : Byte) : Statement (.bcc off) := fun _ => ⟨rfl, rfl, Nat.le_of_ble_eq_true rfl⟩

theorem bcs (off : Byte) : Statement (.bcs off) := fun _ => ⟨rfl, rfl, Nat.le_of_ble_eq_true rfl⟩

theorem beq (off : Byte) : Statement (.beq off) := fun _ => ⟨rfl, rfl, Nat.le_of_ble_eq_true rfl⟩

theorem bne (off : Byte) : Statement (.bne off) := fun _ => ⟨rfl, rfl, Nat.le_of_ble_eq_true rfl⟩

theorem bmi (off : Byte) : Statement (.bmi off) := fun _ => ⟨rfl, rfl, Nat.le_of_ble_eq_true rfl⟩

theorem bpl (off : Byte) : Statement (.bpl off) := fun _ => ⟨rfl, rfl, Nat.le_of_ble_eq_true rfl⟩

theorem bvc (off : Byte) : Statement (.bvc off) := fun _ => ⟨rfl, rfl, Nat.le_of_ble_eq_true rfl⟩

theorem bvs (off : Byte) : Statement (.bvs off) := fun _ => ⟨rfl, rfl, Nat.le_of_ble_eq_true rfl⟩

theorem pha : Statement .pha := fun _ => ⟨rfl, rfl, by decide⟩

theorem php : Statement .php := fun _ => ⟨rfl, rfl, by decide⟩

theorem pla : Statement .pla := fun _ => ⟨rfl, rfl, by decide⟩

theorem plp : Statement .plp := fun _ => ⟨rfl, rfl, by decide⟩

theorem clc : Statement .clc := fun _ => ⟨rfl, rfl, by decide⟩

theorem sec : Statement .sec := fun _ => ⟨rfl, rfl, by decide⟩

theorem cli : Statement .cli := fun _ => ⟨rfl, rfl, by decide⟩

theorem sei : Statement .sei := fun _ => ⟨rfl, rfl, by decide⟩

theorem clv : Statement .clv := fun _ => ⟨rfl, rfl, by decide⟩

theorem cld : Statement .cld := fun _ => ⟨rfl, rfl, by decide⟩

theorem sed : Statement .sed := fun _ => ⟨rfl, rfl, by decide⟩

theorem nop : Statement .nop := fun _ => ⟨rfl, rfl, by decide⟩

theorem brk : Statement .brk := fun _ => ⟨rfl, rfl, by decide⟩

theorem rti : Statement .rti := fun _ => ⟨rfl, rfl, by decide⟩

/-- The rows of the undefined opcodes have no operand. -/
theorem rowOperands_und : ∀ op : Byte, undefinedOpcodes.contains op = true →
    rowOperands (opcodeRow op) = 0 := by decide

theorem und (op : Byte) : Statement (.und op) := fun h =>
  ⟨rfl, by rw [Instr.length, Instr.opcode, rowOperands_und op h]; rfl, by show 1 + 0 ≤ 3; omega⟩

end Sys2Proof.Laws.HeadByte
end

