-- ==== Sys2Proof/Laws/Tick.lean ====
section
/-! SUPPORT. What one dot of the PPU can do to the whole state: a dot changes the fields that the equation
names and no other, and which of those it may change while rendering is disabled. -/

namespace Sys2Proof.Machine

/-- What a dot leaves unchanged, and in which direction it moves the latches (60_exceptions.md R281 to
R285). -/
structure TickFrame (s t : State) : Prop where
  same : t = { s with
    nmiPending := t.nmiPending
    ppu := { s.ppu with
      v := t.ppu.v, oamaddr := t.ppu.oamaddr, scanline := t.ppu.scanline, dot := t.ppu.dot,
      odd := t.ppu.odd, vblank := t.ppu.vblank, spr0 := t.ppu.spr0, sprovf := t.ppu.sprovf }
    frameBuf := t.frameBuf
    cart := { s.cart with regs := t.cart.regs }
    frameComplete := t.frameComplete }
  nmi : s.nmiPending = true → t.nmiPending = true
  complete : s.frameComplete = true → t.frameComplete = true
  nrom : s.Nrom → t.cart = s.cart
  idle : s.ppu.renderingEnabled = false → t.ppu.v = s.ppu.v ∧ t.ppu.oamaddr = s.ppu.oamaddr ∧
    t.frameBuf = s.frameBuf ∧ t.cart = s.cart ∧ (t.ppu.spr0 = true → s.ppu.spr0 = true) ∧
    (t.ppu.sprovf = true → s.ppu.sprovf = true)

theorem TickFrame.refl (s : State) : TickFrame s s :=
  ⟨rfl, id, id, fun _ => rfl, fun _ => ⟨rfl, rfl, rfl, rfl, id, id⟩⟩

theorem TickFrame.variant {s t : State} (h : TickFrame s t) : t.cart.variant = s.cart.variant := by
  rw [h.same]

theorem TickFrame.enabled {s t : State} (h : TickFrame s t) :
    t.ppu.renderingEnabled = s.ppu.renderingEnabled := by
  rw [h.same]; rfl

theorem TickFrame.trans {s t u : State} (h : TickFrame s t) (h' : TickFrame t u) : TickFrame s u where
  same := by
    have e := h'.same
    rw [h.same] at e
    exact e
  nmi := fun hs => h'.nmi (h.nmi hs)
  complete := fun hs => h'.complete (h.complete hs)
  nrom := fun hn => (h'.nrom (h.variant.trans hn)).trans (h.nrom hn)
  idle := fun he => by
    obtain ⟨v, o, f, c, a, b⟩ := h.idle he
    obtain ⟨v', o', f', c', a', b'⟩ := h'.idle (h.enabled.trans he)
    exact ⟨v'.trans v, o'.trans o, f'.trans f, c'.trans c, fun x => a (a' x), fun x => b (b' x)⟩

theorem vblankEvent_frame (s : State) : TickFrame s (vblankEvent s) := by
  unfold vblankEvent vblankEntry
  split
  · exact ⟨rfl, fun h => by simp [h], id, fun _ => rfl, fun _ => ⟨rfl, rfl, rfl, rfl, id, id⟩⟩
  · exact .refl s

theorem preRenderEvent_frame (s : State) : TickFrame s (preRenderEvent s) := by
  unfold preRenderEvent preRenderClear
  split
  · exact ⟨rfl, id, id, fun _ => rfl,
      fun _ => ⟨rfl, rfl, rfl, rfl, (by intro h; cases h), (by intro h; cases h)⟩⟩
  · exact .refl s

theorem applyRender_same (r : RenderOut) (s : State) :
    applyRender r s = { s with
      ppu := { s.ppu with
        v := r.v, oamaddr := r.oamaddr, spr0 := (applyRender r s).ppu.spr0
        sprovf := (applyRender r s).ppu.sprovf }
      frameBuf := (applyRender r s).frameBuf } := rfl

theorem notifyAtDot_same (s : State) :
    notifyAtDot s = { s with cart := { s.cart with regs := (notifyAtDot s).cart.regs } } ∧
      (s.Nrom → notifyAtDot s = s) := by
  unfold notifyAtDot
  split
  · refine ⟨?_, fun hn => ?_⟩
    · rw [Cart.notifyScanline_eq]; rfl
    · have hv : s.cart.variant = .nrom := hn
      have : s.cart.notifyScanline = s.cart := by simp [Cart.notifyScanline, hv]
      rw [this]; rfl
  · exact ⟨rfl, fun _ => rfl⟩

theorem rendering_enabled {p : Ppu} (h : p.rendering = true) : p.renderingEnabled = true := by
  unfold Ppu.rendering at h
  simp only [Bool.and_eq_true] at h
  exact h.1

theorem renderEvent_frame (s : State) : TickFrame s (renderEvent s) := by
  unfold renderEvent
  split
  · next hr =>
    obtain ⟨hs, hn⟩ := notifyAtDot_same s
    unfold renderDot
    generalize Config.render _ _ = r
    refine ⟨?_, fun h => ?_, fun h => ?_, fun h => ?_, fun h => ?_⟩
    · rw [applyRender_same, hs]
    · rw [applyRender_same, hs]; exact h
    · rw [applyRender_same, hs]; exact h
    · rw [hn h]; rfl
    · rw [rendering_enabled hr] at h; cases h
  · exact .refl s

theorem advanceDot_frame (s : State) : TickFrame s (advanceDot s) := by
  unfold advanceDot
  split
  · split
    · exact ⟨rfl, id, fun _ => rfl, fun _ => rfl, fun _ => ⟨rfl, rfl, rfl, rfl, id, id⟩⟩
    · exact ⟨rfl, id, id, fun _ => rfl, fun _ => ⟨rfl, rfl, rfl, rfl, id, id⟩⟩
  · exact ⟨rfl, id, id, fun _ => rfl, fun _ => ⟨rfl, rfl, rfl, rfl, id, id⟩⟩

/-- Every dot has this frame. -/
theorem ppuTick_frame (s : State) : TickFrame s (ppuTick s) :=
  (((vblankEvent_frame s).trans (preRenderEvent_frame _)).trans (renderEvent_frame _)).trans
    (advanceDot_frame _)

/-- The APU's tick raises its flag and counts; it changes nothing else. -/
theorem Apu.tick_same (u : Apu) :
    u.tick = { u with frameIrq := u.tick.frameIrq, fc := u.tick.fc } ∧
      (u.frameIrq = true → u.tick.frameIrq = true) := by
  unfold Apu.tick
  dsimp only
  split
  · exact ⟨rfl, id⟩
  · exact ⟨rfl, fun h => by simp [h]⟩

/-- A sprite flag that rises at a dot rises while rendering on a visible scanline (R285 (b)). -/
theorem ppuTick_sprites (s : State) :
    (s.ppu.spr0 = false → (ppuTick s).ppu.spr0 = true → s.ppu.rendering = true ∧ s.ppu.scanline ≤ 239) ∧
    (s.ppu.sprovf = false → (ppuTick s).ppu.sprovf = true →
      s.ppu.rendering = true ∧ s.ppu.scanline ≤ 239) := by
  have ha : ∀ u : State, (advanceDot u).ppu.spr0 = u.ppu.spr0 ∧ (advanceDot u).ppu.sprovf = u.ppu.sprovf := by
    intro u; unfold advanceDot
    split
    · split <;> exact ⟨rfl, rfl⟩
    · exact ⟨rfl, rfl⟩
  have hb : ∀ u : State, (vblankEvent u).ppu.spr0 = u.ppu.spr0 ∧
      (vblankEvent u).ppu.sprovf = u.ppu.sprovf ∧ (vblankEvent u).ppu.scanline = u.ppu.scanline ∧
      (vblankEvent u).ppu.rendering = u.ppu.rendering := by
    intro u; unfold vblankEvent; split <;> exact ⟨rfl, rfl, rfl, rfl⟩
  have hc : ∀ u : State, ((preRenderEvent u).ppu.spr0 = true → u.ppu.spr0 = true) ∧
      ((preRenderEvent u).ppu.sprovf = true → u.ppu.sprovf = true) ∧
      (preRenderEvent u).ppu.scanline = u.ppu.scanline ∧
      (preRenderEvent u).ppu.rendering = u.ppu.rendering := by
    intro u; unfold preRenderEvent
    split
    · exact ⟨(by intro h; cases h), (by intro h; cases h), rfl, rfl⟩
    · exact ⟨id, id, rfl, rfl⟩
  have hd : ∀ u : State,
      ((renderEvent u).ppu.spr0 = true → u.ppu.spr0 = true ∨ (u.ppu.rendering = true ∧ u.ppu.scanline ≤ 239)) ∧
      ((renderEvent u).ppu.sprovf = true →
        u.ppu.sprovf = true ∨ (u.ppu.rendering = true ∧ u.ppu.scanline ≤ 239)) := by
    intro u; unfold renderEvent
    split
    · next hr =>
      unfold renderDot
      have hs := (notifyAtDot_same u).1
      generalize Config.render _ _ = r
      rw [hs]
      simp only [applyRender, State.setFrameBuf_ppu, State.setPpu_ppu, Bool.or_eq_true, Bool.and_eq_true,
        decide_eq_true_eq]
      exact ⟨fun h => h.imp id fun h => ⟨hr, h.1⟩, fun h => h.imp id fun h => ⟨hr, h.1⟩⟩
    · exact ⟨.inl, .inl⟩
  unfold ppuTick
  rw [(ha _).1, (ha _).2]
  obtain ⟨b1, b2, b3, b4⟩ := hb s
  obtain ⟨c1, c2, c3, c4⟩ := hc (vblankEvent s)
  obtain ⟨d1, d2⟩ := hd (preRenderEvent (vblankEvent s))
  rw [c3, c4, b3, b4] at d1 d2
  rw [b1] at c1
  rw [b2] at c2
  refine ⟨fun hf h => ?_, fun hf h => ?_⟩
  · rcases d1 h with h | h
    · rw [c1 h] at hf; cases hf
    · exact h
  · rcases d2 h with h | h
    · rw [c2 h] at hf; cases hf
    · exact h

end Sys2Proof.Machine
end

