-- ==== Sys2Proof/Tests/Slice0.lean ====
section
/-! SUPPORT. Tests. The words are written from 30_encoding.md R101 and R105, the operand bytes being $9C
and then $5A; the vectors carry the number 95_test_vectors.md gives them, and their expected ends are its
ends. The witnesses show, for each obligation with hypotheses, a state and operands that meet them. -/

namespace Sys2Proof.Tests

open Sys2Proof.Machine

/-! ### Well-formedness: the one check -/

/-- A documented opcode is not an undefined one, and is refused as one. -/
theorem test_wf_refuses_documented_opcode : (Instr.und 0xA9#8).wf = false := by decide

theorem test_wf_accepts_undefined_opcode : (Instr.und 0x02#8).wf = true := by decide

/-! ### Decoding, one test for each constructor, every form of it -/

theorem test_decode_und : [decodeTableWord 8 0b00000010, decodeTableWord 8 0b11111111] =
    [some (.und 0x02#8), some (.und 0xFF#8)] := by decide

theorem test_decode_lda :
    [decodeTableWord 16 0b1001110010100001,
      decodeTableWord 16 0b1001110010100101,
      decodeTableWord 16 0b1001110010101001,
      decodeTableWord 24 0b010110101001110010101101,
      decodeTableWord 16 0b1001110010110001,
      decodeTableWord 16 0b1001110010110101,
      decodeTableWord 24 0b010110101001110010111001,
      decodeTableWord 24 0b010110101001110010111101] =
    [some (.lda (.izx 0x9C#8)), some (.lda (.zp 0x9C#8)), some (.lda (.imm 0x9C#8)), some (.lda
      (.abs 0x5A9C#16)), some (.lda (.izy 0x9C#8)), some (.lda (.zpx 0x9C#8)), some (.lda (.aby
      0x5A9C#16)), some (.lda (.abx 0x5A9C#16))] := by
  decide

theorem test_decode_ldx :
    [decodeTableWord 16 0b1001110010100010,
      decodeTableWord 16 0b1001110010100110,
      decodeTableWord 24 0b010110101001110010101110,
      decodeTableWord 16 0b1001110010110110,
      decodeTableWord 24 0b010110101001110010111110] =
    [some (.ldx (.imm 0x9C#8)), some (.ldx (.zp 0x9C#8)), some (.ldx (.abs 0x5A9C#16)), some (.ldx
      (.zpy 0x9C#8)), some (.ldx (.aby 0x5A9C#16))] := by
  decide

theorem test_decode_ldy :
    [decodeTableWord 16 0b1001110010100000,
      decodeTableWord 16 0b1001110010100100,
      decodeTableWord 24 0b010110101001110010101100,
      decodeTableWord 16 0b1001110010110100,
      decodeTableWord 24 0b010110101001110010111100] =
    [some (.ldy (.imm 0x9C#8)), some (.ldy (.zp 0x9C#8)), some (.ldy (.abs 0x5A9C#16)), some (.ldy
      (.zpx 0x9C#8)), some (.ldy (.abx 0x5A9C#16))] := by
  decide

theorem test_decode_sta :
    [decodeTableWord 16 0b1001110010000001,
      decodeTableWord 16 0b1001110010000101,
      decodeTableWord 24 0b010110101001110010001101,
      decodeTableWord 16 0b1001110010010001,
      decodeTableWord 16 0b1001110010010101,
      decodeTableWord 24 0b010110101001110010011001,
      decodeTableWord 24 0b010110101001110010011101] =
    [some (.sta (.izx 0x9C#8)), some (.sta (.zp 0x9C#8)), some (.sta (.abs 0x5A9C#16)), some (.sta
      (.izy 0x9C#8)), some (.sta (.zpx 0x9C#8)), some (.sta (.aby 0x5A9C#16)), some (.sta (.abx
      0x5A9C#16))] := by
  decide

theorem test_decode_stx :
    [decodeTableWord 16 0b1001110010000110,
      decodeTableWord 24 0b010110101001110010001110,
      decodeTableWord 16 0b1001110010010110] =
    [some (.stx (.zp 0x9C#8)), some (.stx (.abs 0x5A9C#16)), some (.stx (.zpy 0x9C#8))] := by
  decide

theorem test_decode_sty :
    [decodeTableWord 16 0b1001110010000100,
      decodeTableWord 24 0b010110101001110010001100,
      decodeTableWord 16 0b1001110010010100] =
    [some (.sty (.zp 0x9C#8)), some (.sty (.abs 0x5A9C#16)), some (.sty (.zpx 0x9C#8))] := by
  decide

theorem test_decode_tax : decodeTableWord 8 0b10101010 = some (.tax) := by decide

theorem test_decode_tay : decodeTableWord 8 0b10101000 = some (.tay) := by decide

theorem test_decode_txa : decodeTableWord 8 0b10001010 = some (.txa) := by decide

theorem test_decode_tya : decodeTableWord 8 0b10011000 = some (.tya) := by decide

theorem test_decode_tsx : decodeTableWord 8 0b10111010 = some (.tsx) := by decide

theorem test_decode_txs : decodeTableWord 8 0b10011010 = some (.txs) := by decide

theorem test_decode_adc :
    [decodeTableWord 16 0b1001110001100001,
      decodeTableWord 16 0b1001110001100101,
      decodeTableWord 16 0b1001110001101001,
      decodeTableWord 24 0b010110101001110001101101,
      decodeTableWord 16 0b1001110001110001,
      decodeTableWord 16 0b1001110001110101,
      decodeTableWord 24 0b010110101001110001111001,
      decodeTableWord 24 0b010110101001110001111101] =
    [some (.adc (.izx 0x9C#8)), some (.adc (.zp 0x9C#8)), some (.adc (.imm 0x9C#8)), some (.adc
      (.abs 0x5A9C#16)), some (.adc (.izy 0x9C#8)), some (.adc (.zpx 0x9C#8)), some (.adc (.aby
      0x5A9C#16)), some (.adc (.abx 0x5A9C#16))] := by
  decide

theorem test_decode_sbc :
    [decodeTableWord 16 0b1001110011100001,
      decodeTableWord 16 0b1001110011100101,
      decodeTableWord 16 0b1001110011101001,
      decodeTableWord 24 0b010110101001110011101101,
      decodeTableWord 16 0b1001110011110001,
      decodeTableWord 16 0b1001110011110101,
      decodeTableWord 24 0b010110101001110011111001,
      decodeTableWord 24 0b010110101001110011111101] =
    [some (.sbc (.izx 0x9C#8)), some (.sbc (.zp 0x9C#8)), some (.sbc (.imm 0x9C#8)), some (.sbc
      (.abs 0x5A9C#16)), some (.sbc (.izy 0x9C#8)), some (.sbc (.zpx 0x9C#8)), some (.sbc (.aby
      0x5A9C#16)), some (.sbc (.abx 0x5A9C#16))] := by
  decide

theorem test_decode_and :
    [decodeTableWord 16 0b1001110000100001,
      decodeTableWord 16 0b1001110000100101,
      decodeTableWord 16 0b1001110000101001,
      decodeTableWord 24 0b010110101001110000101101,
      decodeTableWord 16 0b1001110000110001,
      decodeTableWord 16 0b1001110000110101,
      decodeTableWord 24 0b010110101001110000111001,
      decodeTableWord 24 0b010110101001110000111101] =
    [some (.and (.izx 0x9C#8)), some (.and (.zp 0x9C#8)), some (.and (.imm 0x9C#8)), some (.and
      (.abs 0x5A9C#16)), some (.and (.izy 0x9C#8)), some (.and (.zpx 0x9C#8)), some (.and (.aby
      0x5A9C#16)), some (.and (.abx 0x5A9C#16))] := by
  decide

theorem test_decode_ora :
    [decodeTableWord 16 0b1001110000000001,
      decodeTableWord 16 0b1001110000000101,
      decodeTableWord 16 0b1001110000001001,
      decodeTableWord 24 0b010110101001110000001101,
      decodeTableWord 16 0b1001110000010001,
      decodeTableWord 16 0b1001110000010101,
      decodeTableWord 24 0b010110101001110000011001,
      decodeTableWord 24 0b010110101001110000011101] =
    [some (.ora (.izx 0x9C#8)), some (.ora (.zp 0x9C#8)), some (.ora (.imm 0x9C#8)), some (.ora
      (.abs 0x5A9C#16)), some (.ora (.izy 0x9C#8)), some (.ora (.zpx 0x9C#8)), some (.ora (.aby
      0x5A9C#16)), some (.ora (.abx 0x5A9C#16))] := by
  decide

theorem test_decode_eor :
    [decodeTableWord 16 0b1001110001000001,
      decodeTableWord 16 0b1001110001000101,
      decodeTableWord 16 0b1001110001001001,
      decodeTableWord 24 0b010110101001110001001101,
      decodeTableWord 16 0b1001110001010001,
      decodeTableWord 16 0b1001110001010101,
      decodeTableWord 24 0b010110101001110001011001,
      decodeTableWord 24 0b010110101001110001011101] =
    [some (.eor (.izx 0x9C#8)), some (.eor (.zp 0x9C#8)), some (.eor (.imm 0x9C#8)), some (.eor
      (.abs 0x5A9C#16)), some (.eor (.izy 0x9C#8)), some (.eor (.zpx 0x9C#8)), some (.eor (.aby
      0x5A9C#16)), some (.eor (.abx 0x5A9C#16))] := by
  decide

theorem test_decode_cmp :
    [decodeTableWord 16 0b1001110011000001,
      decodeTableWord 16 0b1001110011000101,
      decodeTableWord 16 0b1001110011001001,
      decodeTableWord 24 0b010110101001110011001101,
      decodeTableWord 16 0b1001110011010001,
      decodeTableWord 16 0b1001110011010101,
      decodeTableWord 24 0b010110101001110011011001,
      decodeTableWord 24 0b010110101001110011011101] =
    [some (.cmp (.izx 0x9C#8)), some (.cmp (.zp 0x9C#8)), some (.cmp (.imm 0x9C#8)), some (.cmp
      (.abs 0x5A9C#16)), some (.cmp (.izy 0x9C#8)), some (.cmp (.zpx 0x9C#8)), some (.cmp (.aby
      0x5A9C#16)), some (.cmp (.abx 0x5A9C#16))] := by
  decide

theorem test_decode_cpx :
    [decodeTableWord 16 0b1001110011100000,
      decodeTableWord 16 0b1001110011100100,
      decodeTableWord 24 0b010110101001110011101100] =
    [some (.cpx (.imm 0x9C#8)), some (.cpx (.zp 0x9C#8)), some (.cpx (.abs 0x5A9C#16))] := by
  decide

theorem test_decode_cpy :
    [decodeTableWord 16 0b1001110011000000,
      decodeTableWord 16 0b1001110011000100,
      decodeTableWord 24 0b010110101001110011001100] =
    [some (.cpy (.imm 0x9C#8)), some (.cpy (.zp 0x9C#8)), some (.cpy (.abs 0x5A9C#16))] := by
  decide

theorem test_decode_bit :
    [decodeTableWord 16 0b1001110000100100,
      decodeTableWord 24 0b010110101001110000101100] =
    [some (.bit (.zp 0x9C#8)), some (.bit (.abs 0x5A9C#16))] := by
  decide

theorem test_decode_inc :
    [decodeTableWord 16 0b1001110011100110,
      decodeTableWord 24 0b010110101001110011101110,
      decodeTableWord 16 0b1001110011110110,
      decodeTableWord 24 0b010110101001110011111110] =
    [some (.inc (.zp 0x9C#8)), some (.inc (.abs 0x5A9C#16)), some (.inc (.zpx 0x9C#8)), some (.inc
      (.abx 0x5A9C#16))] := by
  decide

theorem test_decode_inx : decodeTableWord 8 0b11101000 = some (.inx) := by decide

theorem test_decode_iny : decodeTableWord 8 0b11001000 = some (.iny) := by decide

theorem test_decode_dec :
    [decodeTableWord 16 0b1001110011000110,
      decodeTableWord 24 0b010110101001110011001110,
      decodeTableWord 16 0b1001110011010110,
      decodeTableWord 24 0b010110101001110011011110] =
    [some (.dec (.zp 0x9C#8)), some (.dec (.abs 0x5A9C#16)), some (.dec (.zpx 0x9C#8)), some (.dec
      (.abx 0x5A9C#16))] := by
  decide

theorem test_decode_dex : decodeTableWord 8 0b11001010 = some (.dex) := by decide

theorem test_decode_dey : decodeTableWord 8 0b10001000 = some (.dey) := by decide

theorem test_decode_asl :
    [decodeTableWord 16 0b1001110000000110,
      decodeTableWord 8 0b00001010,
      decodeTableWord 24 0b010110101001110000001110,
      decodeTableWord 16 0b1001110000010110,
      decodeTableWord 24 0b010110101001110000011110] =
    [some (.asl (.zp 0x9C#8)), some (.asl .acc), some (.asl (.abs 0x5A9C#16)), some (.asl (.zpx
      0x9C#8)), some (.asl (.abx 0x5A9C#16))] := by
  decide

theorem test_decode_lsr :
    [decodeTableWord 16 0b1001110001000110,
      decodeTableWord 8 0b01001010,
      decodeTableWord 24 0b010110101001110001001110,
      decodeTableWord 16 0b1001110001010110,
      decodeTableWord 24 0b010110101001110001011110] =
    [some (.lsr (.zp 0x9C#8)), some (.lsr .acc), some (.lsr (.abs 0x5A9C#16)), some (.lsr (.zpx
      0x9C#8)), some (.lsr (.abx 0x5A9C#16))] := by
  decide

theorem test_decode_rol :
    [decodeTableWord 16 0b1001110000100110,
      decodeTableWord 8 0b00101010,
      decodeTableWord 24 0b010110101001110000101110,
      decodeTableWord 16 0b1001110000110110,
      decodeTableWord 24 0b010110101001110000111110] =
    [some (.rol (.zp 0x9C#8)), some (.rol .acc), some (.rol (.abs 0x5A9C#16)), some (.rol (.zpx
      0x9C#8)), some (.rol (.abx 0x5A9C#16))] := by
  decide

theorem test_decode_ror :
    [decodeTableWord 16 0b1001110001100110,
      decodeTableWord 8 0b01101010,
      decodeTableWord 24 0b010110101001110001101110,
      decodeTableWord 16 0b1001110001110110,
      decodeTableWord 24 0b010110101001110001111110] =
    [some (.ror (.zp 0x9C#8)), some (.ror .acc), some (.ror (.abs 0x5A9C#16)), some (.ror (.zpx
      0x9C#8)), some (.ror (.abx 0x5A9C#16))] := by
  decide

theorem test_decode_jmp :
    [decodeTableWord 24 0b010110101001110001001100,
      decodeTableWord 24 0b010110101001110001101100] =
    [some (.jmp (.abs 0x5A9C#16)), some (.jmp (.ind 0x5A9C#16))] := by
  decide

theorem test_decode_jsr : decodeTableWord 24 0b010110101001110000100000 = some (.jsr 0x5A9C#16) :=
    by decide

theorem test_decode_rts : decodeTableWord 8 0b01100000 = some (.rts) := by decide

theorem test_decode_bcc : decodeTableWord 16 0b1001110010010000 = some (.bcc 0x9C#8) := by decide

theorem test_decode_bcs : decodeTableWord 16 0b1001110010110000 = some (.bcs 0x9C#8) := by decide

theorem test_decode_beq : decodeTableWord 16 0b1001110011110000 = some (.beq 0x9C#8) := by decide

theorem test_decode_bne : decodeTableWord 16 0b1001110011010000 = some (.bne 0x9C#8) := by decide

theorem test_decode_bmi : decodeTableWord 16 0b1001110000110000 = some (.bmi 0x9C#8) := by decide

theorem test_decode_bpl : decodeTableWord 16 0b1001110000010000 = some (.bpl 0x9C#8) := by decide

theorem test_decode_bvc : decodeTableWord 16 0b1001110001010000 = some (.bvc 0x9C#8) := by decide

theorem test_decode_bvs : decodeTableWord 16 0b1001110001110000 = some (.bvs 0x9C#8) := by decide

theorem test_decode_pha : decodeTableWord 8 0b01001000 = some (.pha) := by decide

theorem test_decode_php : decodeTableWord 8 0b00001000 = some (.php) := by decide

theorem test_decode_pla : decodeTableWord 8 0b01101000 = some (.pla) := by decide

theorem test_decode_plp : decodeTableWord 8 0b00101000 = some (.plp) := by decide

theorem test_decode_clc : decodeTableWord 8 0b00011000 = some (.clc) := by decide

theorem test_decode_sec : decodeTableWord 8 0b00111000 = some (.sec) := by decide

theorem test_decode_cli : decodeTableWord 8 0b01011000 = some (.cli) := by decide

theorem test_decode_sei : decodeTableWord 8 0b01111000 = some (.sei) := by decide

theorem test_decode_clv : decodeTableWord 8 0b10111000 = some (.clv) := by decide

theorem test_decode_cld : decodeTableWord 8 0b11011000 = some (.cld) := by decide

theorem test_decode_sed : decodeTableWord 8 0b11111000 = some (.sed) := by decide

theorem test_decode_nop : decodeTableWord 8 0b11101010 = some (.nop) := by decide

theorem test_decode_brk : decodeTableWord 8 0b00000000 = some (.brk) := by decide

theorem test_decode_rti : decodeTableWord 8 0b01000000 = some (.rti) := by decide

/-! ### One step of each instruction -/

/-- Six flags from the bit string N V D I Z C that the vectors print. -/
def flagsOf (w : Nat) : Flags :=
  { n := w.testBit 5, v := w.testBit 4, d := w.testBit 3, i := w.testBit 2, z := w.testBit 1,
    c := w.testBit 0 }

/-- The bit string of six flags. -/
def flagBits (f : Flags) : Nat :=
  32 * f.n.toNat + 16 * f.v.toNat + 8 * f.d.toNat + 4 * f.i.toNat + 2 * f.z.toNat + f.c.toNat

/-- PRG of a 16 KB image with `bytes` at the CPU address `a`, and the vectors NMI $9000 and IRQ $A000
unless `brkVector` gives the other one. -/
def prgAt (a : Word) (bytes : List Byte) (irq : Byte) : Memory :=
  let p := [(0x3FFB, 0x90#8), (0x3FFF, irq)]
  (List.range bytes.length).foldl
    (fun m k => Memory.write m ((a.toNat + k - 0x8000) % 0x4000) (bytes.getD k 0#8)) p

/-- The start state of a vector: the reset state with `bytes` at `pc` in PRG-ROM (in RAM below $0800),
the RAM cells `ram`, A, X, Y, S and the flags. -/
def start (pc : Word) (bytes : List Byte) (ram : List (Nat × Byte)) (a x y sp : Byte) (f : Nat) : State :=
  let low := pc.toNat < 0x800
  let code := if low then (List.range bytes.length).map (fun k => (pc.toNat + k, bytes.getD k 0#8)) else []
  { State.reset with
    a := a, x := x, y := y, sp := sp, pc := pc, p := flagsOf f
    ram := (ram ++ code).foldl (fun m c => Memory.write m c.1 c.2) []
    cart := { Cart.blank with prg := prgAt pc (if low then [] else bytes) 0x90#8 } }

/-- What a vector prints of the state after one step: A, X, Y, S, PC, the flags, the RAM cells it looks
at, and the cost. -/
structure Seen where
  a : Byte
  x : Byte
  y : Byte
  sp : Byte
  pc : Word
  flags : Nat
  cells : List Byte
  cost : Nat
  deriving DecidableEq, Repr

/-- The state after one step as a vector prints it. -/
def after (s : State) (cells : List Nat) : Option Seen :=
  match step s with
  | .next t =>
    some ⟨t.a, t.x, t.y, t.sp, t.pc, flagBits t.p, cells.map (fun c => t.ram.read c), t.wait + 1⟩
  | .fault _ => none
  | .refused _ => none

theorem test_V41_09_lda : after (start 0x8000#16 [0xA1#8, 0xFF#8] [(0x00FF, 0x34#8), (0x0000,
    0x02#8), (0x0100, 0x07#8), (0x0234, 0x66#8)] 0x00#8 0x00#8 0x00#8 0xFD#8 0b000100) [] =
    some ⟨0x66#8, 0x00#8, 0x00#8, 0xFD#8, 0x8002#16, 0b000100, [], 6⟩ := by
  decide

theorem test_V41_11_lda : after (start 0x8000#16 [0xB1#8, 0x86#8] [(0x0086, 0x28#8), (0x0087,
    0x03#8), (0x0408, 0x22#8)] 0x00#8 0x00#8 0xE0#8 0xFD#8 0b000100) [] =
    some ⟨0x22#8, 0x00#8, 0xE0#8, 0xFD#8, 0x8002#16, 0b000100, [], 6⟩ := by
  decide

theorem test_V41_12_ldx : after (start 0x8000#16 [0xB6#8, 0xFF#8] [(0x0000, 0x81#8)] 0x00#8 0x00#8
    0x01#8 0xFD#8 0b000100) [] =
    some ⟨0x00#8, 0x81#8, 0x01#8, 0xFD#8, 0x8002#16, 0b100100, [], 4⟩ := by
  decide

theorem test_V41_13_ldy : after (start 0x8000#16 [0xBC#8, 0xFF#8, 0x02#8] [(0x0300, 0x00#8)] 0x00#8
    0x01#8 0x00#8 0xFD#8 0b000100) [] =
    some ⟨0x00#8, 0x01#8, 0x00#8, 0xFD#8, 0x8003#16, 0b000110, [], 5⟩ := by
  decide

theorem test_V41_14_ldx : after (start 0x8000#16 [0xBE#8, 0xFF#8, 0x02#8] [(0x0301, 0x7E#8)] 0x00#8
    0x00#8 0x02#8 0xFD#8 0b000100) [] =
    some ⟨0x00#8, 0x7E#8, 0x02#8, 0xFD#8, 0x8003#16, 0b000100, [], 5⟩ := by
  decide

theorem test_V41_23_sta : after (start 0x8000#16 [0x91#8, 0x10#8] [(0x0010, 0x01#8), (0x0011,
    0x02#8)] 0xCD#8 0x00#8 0xFF#8 0xFD#8 0b000100) [0x0300] =
    some ⟨0xCD#8, 0x00#8, 0xFF#8, 0xFD#8, 0x8002#16, 0b000100, [0xCD#8], 6⟩ := by
  decide

theorem test_V41_25_stx : after (start 0x8000#16 [0x96#8, 0x10#8] [] 0x00#8 0x77#8 0xF1#8 0xFD#8
    0b000100) [0x0001] =
    some ⟨0x00#8, 0x77#8, 0xF1#8, 0xFD#8, 0x8002#16, 0b000100, [0x77#8], 4⟩ := by
  decide

theorem test_V41_26_sty : after (start 0x8000#16 [0x94#8, 0x10#8] [] 0x00#8 0x05#8 0x66#8 0xFD#8
    0b000100) [0x0015] =
    some ⟨0x00#8, 0x05#8, 0x66#8, 0xFD#8, 0x8002#16, 0b000100, [0x66#8], 4⟩ := by
  decide

theorem test_V41_28_sta : after (start 0x8000#16 [0x8D#8, 0x00#8, 0x18#8] [] 0x9C#8 0x00#8 0x00#8
    0xFD#8 0b000100) [0x0000] =
    some ⟨0x9C#8, 0x00#8, 0x00#8, 0xFD#8, 0x8003#16, 0b000100, [0x9C#8], 4⟩ := by
  decide

theorem test_V41_30_tax : after (start 0x8000#16 [0xAA#8] [] 0x00#8 0x55#8 0x00#8 0xFD#8 0b000100)
    [] =
    some ⟨0x00#8, 0x00#8, 0x00#8, 0xFD#8, 0x8001#16, 0b000110, [], 2⟩ := by
  decide

theorem test_V41_31_tay : after (start 0x8000#16 [0xA8#8] [] 0xF0#8 0x00#8 0x00#8 0xFD#8 0b000100)
    [] =
    some ⟨0xF0#8, 0x00#8, 0xF0#8, 0xFD#8, 0x8001#16, 0b100100, [], 2⟩ := by
  decide

theorem test_V41_32_txa : after (start 0x8000#16 [0x8A#8] [] 0x80#8 0x7F#8 0x00#8 0xFD#8 0b000100)
    [] =
    some ⟨0x7F#8, 0x7F#8, 0x00#8, 0xFD#8, 0x8001#16, 0b000100, [], 2⟩ := by
  decide

theorem test_V41_33_tya : after (start 0x8000#16 [0x98#8] [] 0x01#8 0x00#8 0x00#8 0xFD#8 0b000100)
    [] =
    some ⟨0x00#8, 0x00#8, 0x00#8, 0xFD#8, 0x8001#16, 0b000110, [], 2⟩ := by
  decide

theorem test_V41_34_tsx : after (start 0x8000#16 [0xBA#8] [] 0x00#8 0x00#8 0x00#8 0xFD#8 0b000100)
    [] =
    some ⟨0x00#8, 0xFD#8, 0x00#8, 0xFD#8, 0x8001#16, 0b100100, [], 2⟩ := by
  decide

theorem test_V41_35_txs : after (start 0x8000#16 [0x9A#8] [] 0x00#8 0x00#8 0x00#8 0xFD#8 0b100100)
    [] =
    some ⟨0x00#8, 0x00#8, 0x00#8, 0x00#8, 0x8001#16, 0b100100, [], 2⟩ := by
  decide

theorem test_V42_10_adc : after (start 0x8000#16 [0x69#8, 0x00#8] [] 0x7F#8 0x00#8 0x00#8 0xFD#8
    0b000101) [] =
    some ⟨0x80#8, 0x00#8, 0x00#8, 0xFD#8, 0x8002#16, 0b110100, [], 2⟩ := by
  decide

theorem test_V42_12_adc : after (start 0x8000#16 [0x69#8, 0xFF#8] [] 0xFF#8 0x00#8 0x00#8 0xFD#8
    0b000101) [] =
    some ⟨0xFF#8, 0x00#8, 0x00#8, 0xFD#8, 0x8002#16, 0b100101, [], 2⟩ := by
  decide

theorem test_V42_29_sbc : after (start 0x8000#16 [0xE9#8, 0x00#8] [] 0x00#8 0x00#8 0x00#8 0xFD#8
    0b000100) [] =
    some ⟨0xFF#8, 0x00#8, 0x00#8, 0xFD#8, 0x8002#16, 0b100100, [], 2⟩ := by
  decide

theorem test_V42_30_sbc : after (start 0x8000#16 [0xE9#8, 0x01#8] [] 0x80#8 0x00#8 0x00#8 0xFD#8
    0b000101) [] =
    some ⟨0x7F#8, 0x00#8, 0x00#8, 0xFD#8, 0x8002#16, 0b010101, [], 2⟩ := by
  decide

theorem test_V42_40_and : after (start 0x8000#16 [0x29#8, 0x0F#8] [] 0xF0#8 0x00#8 0x00#8 0xFD#8
    0b000100) [] =
    some ⟨0x00#8, 0x00#8, 0x00#8, 0xFD#8, 0x8002#16, 0b000110, [], 2⟩ := by
  decide

theorem test_V42_42_ora : after (start 0x8000#16 [0x09#8, 0x00#8] [] 0x00#8 0x00#8 0x00#8 0xFD#8
    0b000100) [] =
    some ⟨0x00#8, 0x00#8, 0x00#8, 0xFD#8, 0x8002#16, 0b000110, [], 2⟩ := by
  decide

theorem test_V42_43_ora : after (start 0x8000#16 [0x09#8, 0x81#8] [] 0x10#8 0x00#8 0x00#8 0xFD#8
    0b000100) [] =
    some ⟨0x91#8, 0x00#8, 0x00#8, 0xFD#8, 0x8002#16, 0b100100, [], 2⟩ := by
  decide

theorem test_V42_44_eor : after (start 0x8000#16 [0x49#8, 0xFF#8] [] 0xFF#8 0x00#8 0x00#8 0xFD#8
    0b000100) [] =
    some ⟨0x00#8, 0x00#8, 0x00#8, 0xFD#8, 0x8002#16, 0b000110, [], 2⟩ := by
  decide

theorem test_V42_45_eor : after (start 0x8000#16 [0x49#8, 0xFF#8] [] 0x0F#8 0x00#8 0x00#8 0xFD#8
    0b000100) [] =
    some ⟨0xF0#8, 0x00#8, 0x00#8, 0xFD#8, 0x8002#16, 0b100100, [], 2⟩ := by
  decide

theorem test_V42_46_and : after (start 0x8000#16 [0x39#8, 0x00#8, 0x03#8] [(0x0301, 0x3C#8)] 0xFF#8
    0x00#8 0x01#8 0xFD#8 0b000100) [] =
    some ⟨0x3C#8, 0x00#8, 0x01#8, 0xFD#8, 0x8003#16, 0b000100, [], 4⟩ := by
  decide

theorem test_V42_51_cmp : after (start 0x8000#16 [0xC9#8, 0x41#8] [] 0x40#8 0x00#8 0x00#8 0xFD#8
    0b000100) [] =
    some ⟨0x40#8, 0x00#8, 0x00#8, 0xFD#8, 0x8002#16, 0b100100, [], 2⟩ := by
  decide

theorem test_V42_52_cmp : after (start 0x8000#16 [0xC9#8, 0x01#8] [] 0x80#8 0x00#8 0x00#8 0xFD#8
    0b000100) [] =
    some ⟨0x80#8, 0x00#8, 0x00#8, 0xFD#8, 0x8002#16, 0b000101, [], 2⟩ := by
  decide

theorem test_V42_54_cpx : after (start 0x8000#16 [0xE0#8, 0x10#8] [] 0x00#8 0x20#8 0x00#8 0xFD#8
    0b000100) [] =
    some ⟨0x00#8, 0x20#8, 0x00#8, 0xFD#8, 0x8002#16, 0b000101, [], 2⟩ := by
  decide

theorem test_V42_55_cpy : after (start 0x8000#16 [0xC4#8, 0x10#8] [(0x0010, 0x80#8)] 0x00#8 0x00#8
    0x7F#8 0xFD#8 0b000100) [] =
    some ⟨0x00#8, 0x00#8, 0x7F#8, 0xFD#8, 0x8002#16, 0b100100, [], 3⟩ := by
  decide

theorem test_V42_60_bit : after (start 0x8000#16 [0x24#8, 0x10#8] [(0x0010, 0xC0#8)] 0x01#8 0x00#8
    0x00#8 0xFD#8 0b000100) [] =
    some ⟨0x01#8, 0x00#8, 0x00#8, 0xFD#8, 0x8002#16, 0b110110, [], 3⟩ := by
  decide

theorem test_V42_61_bit : after (start 0x8000#16 [0x24#8, 0x10#8] [(0x0010, 0x3F#8)] 0xFF#8 0x00#8
    0x00#8 0xFD#8 0b110100) [] =
    some ⟨0xFF#8, 0x00#8, 0x00#8, 0xFD#8, 0x8002#16, 0b000100, [], 3⟩ := by
  decide

theorem test_V43_01_inc : after (start 0x8000#16 [0xE6#8, 0x10#8] [(0x0010, 0xFF#8)] 0x00#8 0x00#8
    0x00#8 0xFD#8 0b000100) [0x0010] =
    some ⟨0x00#8, 0x00#8, 0x00#8, 0xFD#8, 0x8002#16, 0b000110, [0x00#8], 5⟩ := by
  decide

theorem test_V43_04_dec : after (start 0x8000#16 [0xC6#8, 0x10#8] [(0x0010, 0x00#8)] 0x00#8 0x00#8
    0x00#8 0xFD#8 0b000100) [0x0010] =
    some ⟨0x00#8, 0x00#8, 0x00#8, 0xFD#8, 0x8002#16, 0b100100, [0xFF#8], 5⟩ := by
  decide

theorem test_V43_05_inc : after (start 0x8000#16 [0xFE#8, 0xFF#8, 0x02#8] [(0x0300, 0x0F#8)] 0x00#8
    0x01#8 0x00#8 0xFD#8 0b000100) [0x0300] =
    some ⟨0x00#8, 0x01#8, 0x00#8, 0xFD#8, 0x8003#16, 0b000100, [0x10#8], 7⟩ := by
  decide

theorem test_V43_06_dec : after (start 0x8000#16 [0xD6#8, 0xF0#8] [(0x0010, 0x80#8)] 0x00#8 0x20#8
    0x00#8 0xFD#8 0b000100) [0x0010] =
    some ⟨0x00#8, 0x20#8, 0x00#8, 0xFD#8, 0x8002#16, 0b000100, [0x7F#8], 6⟩ := by
  decide

theorem test_V43_07_inx : after (start 0x8000#16 [0xE8#8] [] 0x00#8 0xFF#8 0x00#8 0xFD#8 0b000100)
    [] =
    some ⟨0x00#8, 0x00#8, 0x00#8, 0xFD#8, 0x8001#16, 0b000110, [], 2⟩ := by
  decide

theorem test_V43_08_inx : after (start 0x8000#16 [0xE8#8] [] 0x00#8 0x7F#8 0x00#8 0xFD#8 0b000100)
    [] =
    some ⟨0x00#8, 0x80#8, 0x00#8, 0xFD#8, 0x8001#16, 0b100100, [], 2⟩ := by
  decide

theorem test_V43_09_iny : after (start 0x8000#16 [0xC8#8] [] 0x00#8 0x00#8 0xFF#8 0xFD#8 0b000100)
    [] =
    some ⟨0x00#8, 0x00#8, 0x00#8, 0xFD#8, 0x8001#16, 0b000110, [], 2⟩ := by
  decide

theorem test_V43_10_dex : after (start 0x8000#16 [0xCA#8] [] 0x00#8 0x01#8 0x00#8 0xFD#8 0b000100)
    [] =
    some ⟨0x00#8, 0x00#8, 0x00#8, 0xFD#8, 0x8001#16, 0b000110, [], 2⟩ := by
  decide

theorem test_V43_11_dex : after (start 0x8000#16 [0xCA#8] [] 0x00#8 0x00#8 0x00#8 0xFD#8 0b000100)
    [] =
    some ⟨0x00#8, 0xFF#8, 0x00#8, 0xFD#8, 0x8001#16, 0b100100, [], 2⟩ := by
  decide

theorem test_V43_12_dey : after (start 0x8000#16 [0x88#8] [] 0x00#8 0x00#8 0x00#8 0xFD#8 0b000100)
    [] =
    some ⟨0x00#8, 0x00#8, 0xFF#8, 0xFD#8, 0x8001#16, 0b100100, [], 2⟩ := by
  decide

theorem test_V43_22_asl : after (start 0x8000#16 [0x0A#8] [] 0x01#8 0x00#8 0x00#8 0xFD#8 0b000101)
    [] =
    some ⟨0x02#8, 0x00#8, 0x00#8, 0xFD#8, 0x8001#16, 0b000100, [], 2⟩ := by
  decide

theorem test_V43_23_asl : after (start 0x8000#16 [0x06#8, 0x10#8] [(0x0010, 0xC0#8)] 0x00#8 0x00#8
    0x00#8 0xFD#8 0b000100) [0x0010] =
    some ⟨0x00#8, 0x00#8, 0x00#8, 0xFD#8, 0x8002#16, 0b100101, [0x80#8], 5⟩ := by
  decide

theorem test_V43_24_lsr : after (start 0x8000#16 [0x4A#8] [] 0x03#8 0x00#8 0x00#8 0xFD#8 0b000100)
    [] =
    some ⟨0x01#8, 0x00#8, 0x00#8, 0xFD#8, 0x8001#16, 0b000101, [], 2⟩ := by
  decide

theorem test_V43_25_lsr : after (start 0x8000#16 [0x4A#8] [] 0x01#8 0x00#8 0x00#8 0xFD#8 0b000100)
    [] =
    some ⟨0x00#8, 0x00#8, 0x00#8, 0xFD#8, 0x8001#16, 0b000111, [], 2⟩ := by
  decide

theorem test_V43_27_rol : after (start 0x8000#16 [0x2A#8] [] 0x80#8 0x00#8 0x00#8 0xFD#8 0b000101)
    [] =
    some ⟨0x01#8, 0x00#8, 0x00#8, 0xFD#8, 0x8001#16, 0b000101, [], 2⟩ := by
  decide

theorem test_V43_28_rol : after (start 0x8000#16 [0x2A#8] [] 0x80#8 0x00#8 0x00#8 0xFD#8 0b000100)
    [] =
    some ⟨0x00#8, 0x00#8, 0x00#8, 0xFD#8, 0x8001#16, 0b000111, [], 2⟩ := by
  decide

theorem test_V43_31_ror : after (start 0x8000#16 [0x6A#8] [] 0x01#8 0x00#8 0x00#8 0xFD#8 0b000100)
    [] =
    some ⟨0x00#8, 0x00#8, 0x00#8, 0xFD#8, 0x8001#16, 0b000111, [], 2⟩ := by
  decide

theorem test_V43_32_ror : after (start 0x8000#16 [0x76#8, 0x10#8] [(0x0011, 0x00#8)] 0x00#8 0x01#8
    0x00#8 0xFD#8 0b000101) [0x0011] =
    some ⟨0x00#8, 0x01#8, 0x00#8, 0xFD#8, 0x8002#16, 0b100100, [0x80#8], 6⟩ := by
  decide

theorem test_V44_02_jmp : after (start 0x8000#16 [0x6C#8, 0x00#8, 0x03#8] [(0x0300, 0x34#8),
    (0x0301, 0x92#8)] 0x00#8 0x00#8 0x00#8 0xFD#8 0b000100) [] =
    some ⟨0x00#8, 0x00#8, 0x00#8, 0xFD#8, 0x9234#16, 0b000100, [], 5⟩ := by
  decide

theorem test_V44_03_jmp : after (start 0x8000#16 [0x6C#8, 0xFF#8, 0x02#8] [(0x02FF, 0x00#8),
    (0x0200, 0x90#8), (0x0300, 0x80#8)] 0x00#8 0x00#8 0x00#8 0xFD#8 0b000100) [] =
    some ⟨0x00#8, 0x00#8, 0x00#8, 0xFD#8, 0x9000#16, 0b000100, [], 5⟩ := by
  decide

theorem test_V44_04_jsr : after (start 0x8000#16 [0x20#8, 0x10#8, 0x80#8] [] 0x00#8 0x00#8 0x00#8
    0xFD#8 0b000100) [0x01FD, 0x01FC] =
    some ⟨0x00#8, 0x00#8, 0x00#8, 0xFB#8, 0x8010#16, 0b000100, [0x80#8, 0x02#8], 6⟩ := by
  decide

theorem test_V44_06_rts : after (start 0x8000#16 [0x60#8] [(0x01FC, 0xFF#8), (0x01FD, 0xFF#8)]
    0x00#8 0x00#8 0x00#8 0xFB#8 0b000100) [] =
    some ⟨0x00#8, 0x00#8, 0x00#8, 0xFD#8, 0x0000#16, 0b000100, [], 6⟩ := by
  decide

theorem test_V44_07_jsr : after (start 0x8000#16 [0x20#8, 0x00#8, 0x90#8] [] 0x00#8 0x00#8 0x00#8
    0x00#8 0b000100) [0x0100, 0x01FF] =
    some ⟨0x00#8, 0x00#8, 0x00#8, 0xFE#8, 0x9000#16, 0b000100, [0x80#8, 0x02#8], 6⟩ := by
  decide

theorem test_V44_08_rts : after (start 0x8000#16 [0x60#8] [(0x01FF, 0x33#8), (0x0100, 0x90#8)]
    0x00#8 0x00#8 0x00#8 0xFE#8 0b000100) [] =
    some ⟨0x00#8, 0x00#8, 0x00#8, 0x00#8, 0x9034#16, 0b000100, [], 6⟩ := by
  decide

theorem test_V44_10_bcc : after (start 0x8000#16 [0x90#8, 0x04#8] [] 0x00#8 0x00#8 0x00#8 0xFD#8
    0b000100) [] =
    some ⟨0x00#8, 0x00#8, 0x00#8, 0xFD#8, 0x8006#16, 0b000100, [], 3⟩ := by
  decide

theorem test_V44_11_bcc : after (start 0x8000#16 [0x90#8, 0x04#8] [] 0x00#8 0x00#8 0x00#8 0xFD#8
    0b000101) [] =
    some ⟨0x00#8, 0x00#8, 0x00#8, 0xFD#8, 0x8002#16, 0b000101, [], 2⟩ := by
  decide

theorem test_V44_12_bcs : after (start 0x8000#16 [0xB0#8, 0x04#8] [] 0x00#8 0x00#8 0x00#8 0xFD#8
    0b000101) [] =
    some ⟨0x00#8, 0x00#8, 0x00#8, 0xFD#8, 0x8006#16, 0b000101, [], 3⟩ := by
  decide

theorem test_V44_13_beq : after (start 0x80F0#16 [0xF0#8, 0x20#8] [] 0x00#8 0x00#8 0x00#8 0xFD#8
    0b000110) [] =
    some ⟨0x00#8, 0x00#8, 0x00#8, 0xFD#8, 0x8112#16, 0b000110, [], 4⟩ := by
  decide

theorem test_V44_15_bmi : after (start 0x9000#16 [0x30#8, 0x7F#8] [] 0x00#8 0x00#8 0x00#8 0xFD#8
    0b100100) [] =
    some ⟨0x00#8, 0x00#8, 0x00#8, 0xFD#8, 0x9081#16, 0b100100, [], 3⟩ := by
  decide

theorem test_V44_16_bpl : after (start 0x8003#16 [0x10#8, 0xFB#8] [] 0x00#8 0x00#8 0x00#8 0xFD#8
    0b000100) [] =
    some ⟨0x00#8, 0x00#8, 0x00#8, 0xFD#8, 0x8000#16, 0b000100, [], 3⟩ := by
  decide

theorem test_V44_17_bvc : after (start 0x8000#16 [0x50#8, 0x80#8] [] 0x00#8 0x00#8 0x00#8 0xFD#8
    0b000100) [] =
    some ⟨0x00#8, 0x00#8, 0x00#8, 0xFD#8, 0x7F82#16, 0b000100, [], 4⟩ := by
  decide

theorem test_V44_18_bvs : after (start 0x8000#16 [0x70#8, 0x10#8] [] 0x00#8 0x00#8 0x00#8 0xFD#8
    0b000100) [] =
    some ⟨0x00#8, 0x00#8, 0x00#8, 0xFD#8, 0x8002#16, 0b000100, [], 2⟩ := by
  decide

theorem test_V44_19_bvs : after (start 0x8000#16 [0x70#8, 0x10#8] [] 0x00#8 0x00#8 0x00#8 0xFD#8
    0b010100) [] =
    some ⟨0x00#8, 0x00#8, 0x00#8, 0xFD#8, 0x8012#16, 0b010100, [], 3⟩ := by
  decide

theorem test_V44_22_bne : after (start 0x80FE#16 [0xD0#8, 0xFF#8] [] 0x00#8 0x00#8 0x00#8 0xFD#8
    0b000100) [] =
    some ⟨0x00#8, 0x00#8, 0x00#8, 0xFD#8, 0x80FF#16, 0b000100, [], 4⟩ := by
  decide

theorem test_V44_24_bne : after (start 0xFFF0#16 [0xD0#8, 0x1E#8] [] 0x00#8 0x00#8 0x00#8 0xFD#8
    0b000100) [] =
    some ⟨0x00#8, 0x00#8, 0x00#8, 0xFD#8, 0x0010#16, 0b000100, [], 4⟩ := by
  decide

theorem test_V45_01_pha : after (start 0x8000#16 [0x48#8] [] 0x42#8 0x00#8 0x00#8 0xFD#8 0b000100)
    [0x01FD] =
    some ⟨0x42#8, 0x00#8, 0x00#8, 0xFC#8, 0x8001#16, 0b000100, [0x42#8], 3⟩ := by
  decide

theorem test_V45_02_pha : after (start 0x8000#16 [0x48#8] [] 0x42#8 0x00#8 0x00#8 0x00#8 0b000100)
    [0x0100] =
    some ⟨0x42#8, 0x00#8, 0x00#8, 0xFF#8, 0x8001#16, 0b000100, [0x42#8], 3⟩ := by
  decide

theorem test_V45_04_php : after (start 0x8000#16 [0x08#8] [] 0x00#8 0x00#8 0x00#8 0xFD#8 0b111111)
    [0x01FD] =
    some ⟨0x00#8, 0x00#8, 0x00#8, 0xFC#8, 0x8001#16, 0b111111, [0xFF#8], 3⟩ := by
  decide

theorem test_V45_05_php : after (start 0x8000#16 [0x08#8] [] 0x00#8 0x00#8 0x00#8 0xFD#8 0b000000)
    [0x01FD] =
    some ⟨0x00#8, 0x00#8, 0x00#8, 0xFC#8, 0x8001#16, 0b000000, [0x30#8], 3⟩ := by
  decide

theorem test_V45_06_pla : after (start 0x8000#16 [0x68#8] [(0x01FD, 0x00#8)] 0x55#8 0x00#8 0x00#8
    0xFC#8 0b000100) [] =
    some ⟨0x00#8, 0x00#8, 0x00#8, 0xFD#8, 0x8001#16, 0b000110, [], 4⟩ := by
  decide

theorem test_V45_07_pla : after (start 0x8000#16 [0x68#8] [(0x0100, 0x80#8)] 0x00#8 0x00#8 0x00#8
    0xFF#8 0b000100) [] =
    some ⟨0x80#8, 0x00#8, 0x00#8, 0x00#8, 0x8001#16, 0b100100, [], 4⟩ := by
  decide

theorem test_V45_08_plp : after (start 0x8000#16 [0x28#8] [(0x01FD, 0xC3#8)] 0x00#8 0x00#8 0x00#8
    0xFC#8 0b000100) [] =
    some ⟨0x00#8, 0x00#8, 0x00#8, 0xFD#8, 0x8001#16, 0b110011, [], 4⟩ := by
  decide

theorem test_V45_11_plp : after (start 0x8000#16 [0x28#8] [(0x01FD, 0x30#8)] 0x00#8 0x00#8 0x00#8
    0xFC#8 0b000100) [] =
    some ⟨0x00#8, 0x00#8, 0x00#8, 0xFD#8, 0x8001#16, 0b000000, [], 4⟩ := by
  decide

theorem test_V45_20_clc : after (start 0x8000#16 [0x18#8] [] 0x00#8 0x00#8 0x00#8 0xFD#8 0b111111)
    [] =
    some ⟨0x00#8, 0x00#8, 0x00#8, 0xFD#8, 0x8001#16, 0b111110, [], 2⟩ := by
  decide

theorem test_V45_21_sec : after (start 0x8000#16 [0x38#8] [] 0x00#8 0x00#8 0x00#8 0xFD#8 0b000000)
    [] =
    some ⟨0x00#8, 0x00#8, 0x00#8, 0xFD#8, 0x8001#16, 0b000001, [], 2⟩ := by
  decide

theorem test_V45_22_cli : after (start 0x8000#16 [0x58#8] [] 0x00#8 0x00#8 0x00#8 0xFD#8 0b111111)
    [] =
    some ⟨0x00#8, 0x00#8, 0x00#8, 0xFD#8, 0x8001#16, 0b111011, [], 2⟩ := by
  decide

theorem test_V45_23_sei : after (start 0x8000#16 [0x78#8] [] 0x00#8 0x00#8 0x00#8 0xFD#8 0b000000)
    [] =
    some ⟨0x00#8, 0x00#8, 0x00#8, 0xFD#8, 0x8001#16, 0b000100, [], 2⟩ := by
  decide

theorem test_V45_24_clv : after (start 0x8000#16 [0xB8#8] [] 0x00#8 0x00#8 0x00#8 0xFD#8 0b111111)
    [] =
    some ⟨0x00#8, 0x00#8, 0x00#8, 0xFD#8, 0x8001#16, 0b101111, [], 2⟩ := by
  decide

theorem test_V45_25_cld : after (start 0x8000#16 [0xD8#8] [] 0x00#8 0x00#8 0x00#8 0xFD#8 0b111111)
    [] =
    some ⟨0x00#8, 0x00#8, 0x00#8, 0xFD#8, 0x8001#16, 0b110111, [], 2⟩ := by
  decide

theorem test_V45_26_sed : after (start 0x8000#16 [0xF8#8] [] 0x00#8 0x00#8 0x00#8 0xFD#8 0b000000)
    [] =
    some ⟨0x00#8, 0x00#8, 0x00#8, 0xFD#8, 0x8001#16, 0b001000, [], 2⟩ := by
  decide

theorem test_V45_27_nop : after (start 0x8000#16 [0xEA#8] [] 0x01#8 0x02#8 0x03#8 0xFD#8 0b101010)
    [] =
    some ⟨0x01#8, 0x02#8, 0x03#8, 0xFD#8, 0x8001#16, 0b101010, [], 2⟩ := by
  decide

theorem test_V45_30_brk : after (start 0x8000#16 [0x00#8] [] 0x00#8 0x00#8 0x00#8 0xFD#8 0b000000)
    [0x01FD, 0x01FC, 0x01FB] =
    some ⟨0x00#8, 0x00#8, 0x00#8, 0xFA#8, 0x9000#16, 0b000100, [0x80#8, 0x02#8, 0x30#8], 7⟩ := by
  decide

theorem test_V45_31_brk : after (start 0x8000#16 [0x00#8] [] 0x00#8 0x00#8 0x00#8 0x01#8 0b110011)
    [0x0101, 0x0100, 0x01FF] =
    some ⟨0x00#8, 0x00#8, 0x00#8, 0xFE#8, 0x9000#16, 0b110111, [0x80#8, 0x02#8, 0xF3#8], 7⟩ := by
  decide

theorem test_V45_32_rti : after (start 0x8000#16 [0x40#8] [(0x01FB, 0x30#8), (0x01FC, 0x02#8),
    (0x01FD, 0x80#8)] 0x00#8 0x00#8 0x00#8 0xFA#8 0b000100) [] =
    some ⟨0x00#8, 0x00#8, 0x00#8, 0xFD#8, 0x8002#16, 0b000000, [], 6⟩ := by
  decide

theorem test_V45_33_rti : after (start 0x8000#16 [0x40#8] [(0x01FB, 0xCF#8), (0x01FC, 0x34#8),
    (0x01FD, 0x12#8)] 0x00#8 0x00#8 0x00#8 0xFA#8 0b000100) [] =
    some ⟨0x00#8, 0x00#8, 0x00#8, 0xFD#8, 0x1234#16, 0b111111, [], 6⟩ := by
  decide

theorem test_V46_03_und : after (start 0x8000#16 [0x80#8, 0xA9#8] [] 0x00#8 0x00#8 0x00#8 0xFD#8
    0b000100) [] =
    some ⟨0x00#8, 0x00#8, 0x00#8, 0xFD#8, 0x8001#16, 0b000100, [], 2⟩ := by
  decide

theorem test_V46_05_und : after (start 0x8000#16 [0xA7#8, 0x10#8] [(0x0010, 0x99#8)] 0x05#8 0x00#8
    0x00#8 0xFD#8 0b000100) [] =
    some ⟨0x05#8, 0x00#8, 0x00#8, 0xFD#8, 0x8001#16, 0b000100, [], 2⟩ := by
  decide

/-! ### Interrupts, the bus and the devices -/

/-- VI-01: NMI entry. -/
theorem test_VI_01_nmi_entry :
    after { start 0x8000#16 [0xEA#8, 0xEA#8] [] 0x11#8 0x00#8 0x00#8 0xFD#8 0b010011 with
      nmiPending := true, cart := { Cart.blank with prg := prgAt 0x8000#16 [0xEA#8, 0xEA#8] 0xA0#8 } }
      [0x01FD, 0x01FC, 0x01FB] =
    some ⟨0x11#8, 0x00#8, 0x00#8, 0xFA#8, 0x9000#16, 0b010111, [0x80#8, 0x00#8, 0x63#8], 7⟩ := by
  decide

/-- The state VI-02 and VI-04 start in: the frame interrupt flag is set. -/
def withIrq (bytes : List Byte) (f : Nat) : State :=
  { start 0x8000#16 bytes [] 0x00#8 0x00#8 0x00#8 0xFD#8 f with
    apu := { Apu.reset with frameIrq := true }
    cart := { Cart.blank with prg := prgAt 0x8000#16 bytes 0xA0#8 } }

/-- VI-02: an IRQ is taken when `P.I` is 0. -/
theorem test_VI_02_irq_entry : after (withIrq [0xEA#8, 0xEA#8] 0b000000) [0x01FD, 0x01FC, 0x01FB] =
    some ⟨0x00#8, 0x00#8, 0x00#8, 0xFA#8, 0xA000#16, 0b000100, [0x80#8, 0x00#8, 0x20#8], 7⟩ := by
  decide

/-- VI-02: and masked when it is 1. -/
theorem test_VI_02_irq_masked : after (withIrq [0xEA#8, 0xEA#8] 0b000100) [] =
    some ⟨0x00#8, 0x00#8, 0x00#8, 0xFD#8, 0x8001#16, 0b000100, [], 2⟩ := by
  decide

/-- VI-04: the IRQ is taken at the boundary right after CLI, three steps from its start. -/
theorem test_VI_04_no_latency_after_cli :
    (match Host.Core.run Sys2Proof.core 3 (withIrq [0x58#8, 0xEA#8] 0b000100) with
      | .next t => some (t.pc, t.p.i, t.ram.read 0x01FC, t.ram.read 0x01FB)
      | .fault _ => none
      | .refused _ => none) = some (0xA000#16, true, 0x01#8, 0x20#8) := by
  decide

/-- VD-01: a read of $2002 clears the vertical blank flag and the write toggle. -/
theorem test_VD_01_status_read :
    (match memRead 0x3FFA#16 { State.reset with
        ppu := { Ppu.reset with vblank := true, spr0 := true, w := true } } with
      | .ok (b, t) => some (b, t.ppu.vblank, t.ppu.w, t.ppu.spr0)
      | .error _ => none) = some (0xC0#8, false, false, true) := by
  decide

/-- A list of writes, one after another. -/
def writes (l : List (Word × Byte)) (s : State) : Except Refusal State :=
  l.foldlM (fun u w => memWrite w.1 w.2 u) s

/-- VD-02: the address latch and the auto-increment. -/
theorem test_VD_02_address_and_data :
    (match writes [(0x2006#16, 0x20#8), (0x2006#16, 0x05#8), (0x2007#16, 0xAB#8), (0x2007#16, 0xCD#8)]
        State.reset with
      | .ok t => some (t.ppu.vram, t.ppu.t, t.ppu.v, t.ppu.w)
      | .error _ => none) = some ([(5, 0xAB#8), (6, 0xCD#8)], 0x2005#15, 0x2007#15, false) := by
  decide

/-- VD-03: entry $10 of the palette is entry $00, and six bits are kept. -/
theorem test_VD_03_palette_alias :
    (match writes [(0x2006#16, 0x3F#8), (0x2006#16, 0x10#8), (0x2007#16, 0xED#8)] State.reset with
      | .ok t => some (t.ppu.pal, t.ppu.v)
      | .error _ => none) = some ([(0, 0x2D#8)], 0x3F11#15) := by
  decide

/-- VD-05: $2005 twice and $2000. -/
theorem test_VD_05_scroll :
    (match writes [(0x2005#16, 0x7D#8), (0x2005#16, 0x5E#8), (0x2000#16, 0x03#8)] State.reset with
      | .ok t => some (t.ppu.t, t.ppu.x, t.ppu.w, t.ppu.ctrl)
      | .error _ => none) = some (0x6D6F#15, 5#3, false, 0x03#8) := by
  decide

/-- VD-07: the buttons of pad 0, bit 0 first, with ones after the eighth. -/
theorem test_VD_07_controller :
    (match writes [(0x4016#16, 0x01#8), (0x4016#16, 0x00#8)]
        { State.reset with pads := { Pads.reset with pad0 := 0xC1#8, pad1 := 0x02#8 } } with
      | .ok t => some ((List.range 10).map (fun n => (ioRead 0x4016#16 (Spec.reads4016 n t)).1.toNat))
      | .error _ => none) = some [1, 0, 0, 0, 0, 0, 1, 1, 1, 1] := by
  decide

/-- VD-09: the frame interrupt flag rises on the 29,829th tick, and the sequencer restarts on the next. -/
theorem test_VD_09_frame_irq :
    ({ Apu.reset with fc := 29828 } : Apu).tick = { Apu.reset with fc := 29829, frameIrq := true } ∧
      ({ Apu.reset with fc := 29829 } : Apu).tick = Apu.reset := by
  decide

/-- The interface of the host: the word $55A9 at the fetch of the reset state is LDA #$55. -/
theorem test_withFetchWord_runs_lda :
    (match step (State.reset.withFetchWord 16 0x55A9) with
      | .next t => some (t.a, t.wait)
      | .fault _ => none
      | .refused _ => none) = some (0x55#8, 1) := by
  decide

/-- An image that is too short is refused whole (20_memory.md R83). -/
theorem test_short_image_refused : loadImage [0x4E#8, 0x45#8, 0x53#8, 0x1A#8] = .error .formatError :=
  rfl

/-- The image of one bank and no CHR is accepted. -/
theorem test_image_accepted (body : List Byte) (h : body.length = 16384) :
    loadImage ([0x4E#8, 0x45#8, 0x53#8, 0x1A#8, 0x01#8, 0x00#8, 0x01#8, 0x00#8] ++
      [0#8, 0#8, 0#8, 0#8, 0#8, 0#8, 0#8, 0#8] ++ body) =
    .ok (buildCart .nrom 0x01#8 0x00#8 0x01#8 (body)) := by
  simp [loadImage, sizeMatches, trainerSize, variantOf, headerMapper, nromHeader, h]

/-! ### Witnesses: for each obligation with hypotheses, what meets them -/

/-- The reset state in the visible raster with rendering enabled. -/
def renderingState : State := { State.reset with ppu := { Ppu.reset with mask := 0x08#8 } }

/-- The reset state with the PPU's raster at a position. -/
def atRaster (scanline dot : Nat) (odd : Bool) (ctrl : Byte) : State :=
  { State.reset with
    wait := 1
    ppu := { Ppu.reset with scanline := scanline, dot := dot, odd := odd, ctrl := ctrl } }

theorem witness_DecodeEncodeRoundTrip :
    (Instr.und 0x02#8).wf = true ∧ (Instr.und 0xFF#8).wf = true ∧
      (Instr.lda (.imm 0xFF#8)).wf = true ∧ (Instr.jmp (.ind 0xFFFF#16)).wf = true := by decide

theorem witness_EncodeDecodeRoundTrip :
    decode [0x00#8, 0xFF#8] = .ok (.brk, [0xFF#8]) ∧ decode [0xFF#8] = .ok (.und 0xFF#8, []) ∧
      decode [0x6C#8, 0xFF#8, 0xFF#8] = .ok (.jmp (.ind 0xFFFF#16), []) := ⟨rfl, rfl, rfl⟩

theorem witness_UndefinedOpcodesAreTheComplement :
    Spec.documentedOpcodes.contains 0x02#8 = false ∧ Spec.documentedOpcodes.contains 0xA9#8 = true ∧
      decode [0xA9#8, 0x01#8] = .ok (.lda (.imm 0x01#8), []) := ⟨by decide, by decide, rfl⟩

/-- The reset state about to execute LDA #$55 from RAM. -/
def ldaInRam : State := { State.reset with ram := [(0, 0xA9#8), (1, 0x55#8)], pc := 0x0000#16 }

/-- The three clauses with code in RAM, and the addresses at the ends of the plain ranges. -/
theorem witness_StepRunsDecodedInstruction :
    let s := ldaInRam
    (s.AtInstruction ∧ s.Nrom ∧ plainAddr s.pc ∧ plainAddr (s.pc + 1#16) ∧ plainAddr (s.pc + 2#16) ∧
      peek s s.pc = some 0xA9#8 ∧ peek s (s.pc + 1#16) = some 0x55#8 ∧
      peek s (s.pc + 2#16) = some 0x00#8) ∧
    decode [0xA9#8, 0x55#8, 0x00#8] = .ok (.lda (.imm 0x55#8), [0x00#8]) ∧
    memRead s.pc s = .ok (0xA9#8, s) ∧ memRead (s.pc + 1#16) s = .ok (0x55#8, s) ∧
      memRead (s.pc + 2#16) s = .ok (0x00#8, s) ∧
    (plainAddr 0x1FFF#16 ∧ plainAddr 0x4018#16 ∧ plainAddr 0xFFFF#16 ∧
      peek s 0x1FFF#16 = some 0x00#8 ∧ peek s 0x4018#16 = some 0x00#8) :=
  ⟨by decide, rfl, rfl, rfl, rfl, by decide⟩

/-- One state for each of the first four clauses, the fourth in both its ways; a state with rendering
disabled and a sprite flag up; and cycles that begin and end at the two ends of the scanlines below the
picture, with a sprite flag that stays up. -/
theorem witness_CpuCycleSequencing :
    0 < (atRaster 0 0 false 0#8).wait ∧
    (State.reset.wait = 0 ∧ ({ State.reset with nmiPending := true }).nmiPending = true) ∧
    (let s := withIrq [0xEA#8] 0b000000
     s.wait = 0 ∧ s.nmiPending = false ∧ (s.apu.frameIrq || s.cart.irq) = true ∧ s.p.i = false) ∧
    (let s := withIrq [0xEA#8] 0b000100
     s.wait = 0 ∧ s.nmiPending = false ∧ (s.apu.frameIrq || s.cart.irq) = true ∧ s.p.i = true) ∧
    (State.reset.wait = 0 ∧ State.reset.nmiPending = false ∧
      (State.reset.apu.frameIrq || State.reset.cart.irq) = false) ∧
    (let s := { State.reset with ppu := { Ppu.reset with spr0 := true, sprovf := true } }
     s.ppu.renderingEnabled = false ∧ (deviceTicks s).ppu.spr0 = true ∧
       (deviceTicks s).ppu.sprovf = true) ∧
    (let s := { State.reset with ppu := { Ppu.reset with scanline := 240, spr0 := true, sprovf := true } }
     239 < s.ppu.scanline ∧ 239 < (deviceTicks s).ppu.scanline ∧ (deviceTicks s).ppu.spr0 = true ∧
       (deviceTicks s).ppu.sprovf = true) ∧
    (239 < (atRaster 261 337 false 0#8).ppu.scanline ∧
      239 < (deviceTicks (atRaster 261 337 false 0#8)).ppu.scanline) ∧ State.reset.Nrom := by decide

/-- RAM in its canonical form, empty and with a cell that holds the last value. -/
theorem witness_JsrRtsRoundTrip :
    Memory.wf 0x800 State.reset.ram = true ∧ Memory.wf 0x800 [(0x07FF, 0xFF#8)] = true := by decide

theorem witness_StackRoundTrips :
    Memory.wf 0x800 State.reset.ram = true ∧ Memory.wf 0x800 [(0x0100, 0x01#8), (0x01FF, 0xFF#8)] = true := by
  decide

theorem witness_EntryRtiRoundTrip :
    Memory.wf 0x800 State.reset.ram = true ∧ Memory.wf 0x800 [(0x0100, 0x01#8), (0x01FF, 0xFF#8)] = true := by
  decide

theorem witness_CompletesOutsideRendering :
    State.reset.ppu.rendering = false ∧
      ({ renderingState with ppu := { renderingState.ppu with scanline := 240 } }).ppu.rendering = false := by
  decide

/-- A refused instruction, a refused step, and operands at the ends of the plain ranges. -/
theorem witness_RefusalOnlyWhileRendering :
    exec (.lda (.abs 0x2007#16)) renderingState = .refused .ppuDataWhileRendering ∧
    step { renderingState with
        ram := [(0, 0xAD#8), (1, 0x07#8), (2, 0x20#8)], pc := 0x0000#16 } =
      .refused .ppuDataWhileRendering ∧
    (Spec.memMode (.lda (.abs 0x1FFF#16))).all (fun m => plainAddr (effAddr m renderingState)) = true ∧
    (Spec.memMode (.inc (.abs 0x4018#16))).all (fun m => plainAddr (effAddr m renderingState)) = true ∧
    (Spec.memMode .nop).all (fun m => plainAddr (effAddr m renderingState)) = true ∧
    (∀ w, Instr.lda (.abs 0x1FFF#16) ≠ .jmp (.ind w)) :=
  ⟨rfl, rfl, by decide, by decide, by decide, nofun⟩

/-- An immediate operand, one from memory, and one with a side effect. -/
theorem witness_LoadResults :
    Spec.operandRead (aluOperand (.imm 0x80#8)) State.reset = some (0x80#8, State.reset) ∧
    (∃ r, Spec.operandRead (aluOperand (.abs 0x2002#16)) State.reset = some r) ∧
    Spec.operandRead (ldxOperand (.zpy 0xFF#8)) State.reset = some (0x00#8, State.reset) ∧
    Spec.operandRead (ldyOperand (.zpx 0xFF#8)) State.reset = some (0x00#8, State.reset) :=
  ⟨rfl, ⟨_, rfl⟩, rfl, rfl⟩

/-- RAM, a PPU register and the DMA. -/
theorem witness_StoreResults :
    (∃ t, memWrite (effAddr (staMode (.zp 0x10#8)) State.reset) State.reset.a State.reset = .ok t) ∧
    (∃ t, memWrite (effAddr (staMode (.abs 0x2007#16)) State.reset) State.reset.a State.reset = .ok t) ∧
    (∃ t, memWrite (effAddr (stxMode (.abs 0x2006#16)) State.reset) State.reset.x State.reset = .ok t) ∧
    (∃ t, memWrite (effAddr (styMode (.abs 0x4016#16)) State.reset) State.reset.y State.reset = .ok t) :=
  ⟨⟨_, rfl⟩, ⟨_, rfl⟩, ⟨_, rfl⟩, ⟨_, rfl⟩⟩

theorem witness_AdcResult :
    Spec.operandRead (aluOperand (.imm 0xFF#8)) { State.reset with a := 0xFF#8 } =
      some (0xFF#8, { State.reset with a := 0xFF#8 }) := by decide

theorem witness_SbcResult :
    Spec.operandRead (aluOperand (.izy 0x00#8)) { State.reset with y := 0xFF#8 } =
      some (0x00#8, { State.reset with y := 0xFF#8 }) := by decide

theorem witness_LogicResults :
    Spec.operandRead (aluOperand (.abx 0xFFFF#16)) { State.reset with x := 0x01#8 } =
      some (0x00#8, { State.reset with x := 0x01#8 }) := by decide

theorem witness_CompareResults :
    Spec.operandRead (aluOperand (.zp 0xFF#8)) State.reset = some (0x00#8, State.reset) ∧
    Spec.operandRead (cpOperand (.imm 0xFF#8)) State.reset = some (0xFF#8, State.reset) := by decide

theorem witness_BitTestResult :
    Spec.operandRead (bitOperand (.zp 0x00#8)) State.reset = some (0x00#8, State.reset) ∧
    (∃ r, Spec.operandRead (bitOperand (.abs 0x2002#16)) State.reset = some r) :=
  ⟨rfl, ⟨_, rfl⟩⟩

/-- A RAM cell that wraps when it is incremented, and a register whose read has a side effect. -/
theorem witness_IncDecMemoryResults :
    Spec.modMode (incOperand (.zp 0x10#8)) = some (.zp 0x10#8) ∧
    (let s := { State.reset with ram := [(0x10, 0xFF#8)] }
     memRead (effAddr (.zp 0x10#8) s) s = .ok (0xFF#8, s) ∧
     (∃ u, memWrite (effAddr (.zp 0x10#8) s) 0x00#8 s = .ok u) ∧
     (∃ u, memWrite (effAddr (.zp 0x10#8) s) 0xFE#8 s = .ok u)) ∧
    Spec.modMode (incOperand (.abs 0x2007#16)) = some (.abs 0x2007#16) ∧
    (∃ b t u, memRead 0x2007#16 State.reset = .ok (b, t) ∧ memWrite 0x2007#16 (b + 1#8) t = .ok u) :=
  ⟨rfl, ⟨rfl, ⟨_, rfl⟩, ⟨_, rfl⟩⟩, rfl, ⟨_, _, _, rfl, rfl⟩⟩

theorem witness_ShiftRotateResults :
    Spec.modMode (shiftOperand (.abx 0x01FF#16)) = some (.abx 0x01FF#16) ∧
    (let s := { State.reset with x := 0x01#8, ram := [(0x0200, 0x81#8)] }
     memRead (effAddr (.abx 0x01FF#16) s) s = .ok (0x81#8, s) ∧
     (∃ u, memWrite (effAddr (.abx 0x01FF#16) s) (Spec.ShiftKind.ror.result 0x81#8 true) s = .ok u)) :=
  ⟨rfl, rfl, ⟨_, rfl⟩⟩

/-- A pointer at the end of a page. -/
theorem witness_JmpResults :
    memRead 0x02FF#16 State.reset = .ok (0x00#8, State.reset) ∧
    memRead (BitVec.ofNat 16 (0x02FF / 256 * 256 + (0x02FF % 256 + 1) % 256)) State.reset =
      .ok (0x00#8, State.reset) := ⟨rfl, rfl⟩

/-- Each branch stands in the table; in the reset state some are taken and some are not. -/
theorem witness_BranchResults :
    (Instr.bcc 0x80#8, true) ∈ Spec.branchTable 0x80#8 State.reset ∧
    (Instr.bvs 0x7F#8, false) ∈ Spec.branchTable 0x7F#8 State.reset := by decide

theorem witness_NopAndUndefinedResults : State.reset.params = Params.default := rfl

theorem witness_DecimalFlagIgnored :
    (∃ t, exec (.adc (.imm 0x09#8)) State.reset = .next t) ∧
    (∃ t, exec (.sbc (.imm 0x09#8)) State.reset = .next t) := ⟨⟨_, rfl⟩, ⟨_, rfl⟩⟩

theorem witness_RamMirrors :
    Memory.wf 0x800 State.reset.ram = true ∧ Memory.wf 0x800 [(0x07FF, 0xFF#8)] = true ∧
      (0x0000#16).toNat < 0x2000 ∧ (0x1FFF#16).toNat < 0x2000 ∧ (0x1FFF#16).toNat % 2048 = 0x07FF := by
  decide

/-- The ends of each range; no address falls under two clauses with different outcomes. -/
theorem witness_RegisterWindows :
    (0x2000 ≤ (0x2000#16).toNat ∧ (0x3FFF#16).toNat < 0x4000) ∧
    0x2006#16 ∈ [0x2000#16, 0x2001#16, 0x2003#16, 0x2005#16, 0x2006#16] ∧
    (0x4000 ≤ (0x4000#16).toNat ∧ (0x4014#16).toNat ≤ 0x4014 ∧ (0x4013#16).toNat ≤ 0x4013) ∧
    0x4018 ≤ (0x4018#16).toNat ∧ 0x4018 ≤ (0xFFFF#16).toNat := by decide

theorem witness_NromCartridge :
    Cart.blank.variant = .nrom ∧ 0x8000 ≤ (0x8000#16).toNat ∧ 0x8000 ≤ (0xFFFF#16).toNat ∧
      (0x7FFF#16).toNat < 0x8000 := by decide

/-- NOP meets the hypotheses of the first five clauses, BRK that of the last. -/
theorem witness_FlagsWrittenOnlyByTable :
    (∃ t, exec .nop State.reset = .next t) ∧ Spec.mnemonic .nop ∉ Spec.writesC ∧
    Spec.mnemonic .nop ∉ Spec.writesZN ∧
    Spec.mnemonic .nop ∉ ["SEI", "CLI", "PLP", "RTI", "BRK"] ∧
    Spec.mnemonic .nop ∉ ["SED", "CLD", "PLP", "RTI"] ∧
    Spec.mnemonic .nop ∉ ["ADC", "SBC", "BIT", "CLV", "PLP", "RTI"] ∧
    (∃ t, exec .brk State.reset = .next t) ∧ Spec.mnemonic .brk = "BRK" :=
  ⟨⟨_, rfl⟩, by decide, by decide, by decide, by decide, by decide, ⟨_, rfl⟩, rfl⟩

/-- A store meets all but the second clause's hypotheses, a shift of a memory cell those. -/
theorem witness_RegistersWrittenOnlyByTable :
    (∃ t, exec (.sta (.zp 0x10#8)) State.reset = .next t) ∧
    Spec.mnemonic (.sta (.zp 0x10#8)) ∉ Spec.writesA ∧
    Spec.mnemonic (.sta (.zp 0x10#8)) ∉ ["LDX", "TAX", "TSX", "INX", "DEX"] ∧
    Spec.mnemonic (.sta (.zp 0x10#8)) ∉ ["LDY", "TAY", "INY", "DEY"] ∧
    Spec.mnemonic (.sta (.zp 0x10#8)) ∉ Spec.writesS ∧
    Spec.mnemonic (.sta (.zp 0x10#8)) ∉ Spec.transfers ∧ Spec.mnemonic (.sta (.zp 0x10#8)) ≠ "UND" ∧
    (∃ t, exec (.asl (.zp 0x10#8)) State.reset = .next t) ∧
    Spec.mnemonic (.asl (.zp 0x10#8)) ∈ ["ASL", "LSR", "ROL", "ROR"] ∧
    (Spec.memMode (.asl (.zp 0x10#8))).isSome = true :=
  ⟨⟨_, rfl⟩, by decide, by decide, by decide, by decide, by decide, by decide, ⟨_, rfl⟩, by decide, rfl⟩

theorem witness_HiddenStateFrame :
    (∃ t, exec (.lda (.abs 0x2002#16)) State.reset = .next t) ∧
    (∃ t, exec (.sta (.abs 0x2007#16)) State.reset = .next t) := ⟨⟨_, rfl⟩, ⟨_, rfl⟩⟩

theorem witness_NonStoringKeepMemory :
    Spec.storesNothing (.cmp (.abs 0x2007#16)) = true ∧
    (∃ t, exec (.cmp (.abs 0x2007#16)) State.reset = .next t) ∧ State.reset.Nrom ∧
    Spec.storesNothing (.asl .acc) = true ∧ (∃ t, exec (.asl .acc) State.reset = .next t) :=
  ⟨by decide, ⟨_, rfl⟩, rfl, by decide, ⟨_, rfl⟩⟩

/-- A store to RAM and to each kind of register; the addresses at the ends of the RAM window. -/
theorem witness_StoreFrame :
    Spec.storeMode (.sta (.abs 0x1FFF#16)) = some (.abs 0x1FFF#16) ∧
    (∃ t, exec (.sta (.abs 0x1FFF#16)) State.reset = .next t) ∧
    (∃ t, exec (.stx (.abs 0x1FFF#16)) State.reset = .next t) ∧
    (∃ t, exec (.sty (.abs 0x1FFF#16)) State.reset = .next t) ∧
    Memory.wf 0x800 State.reset.ram = true ∧ State.reset.Nrom ∧ plainAddr 0x1FFE#16 ∧ plainAddr 0x4018#16 ∧
    Spec.ramCell 0x1FFF#16 = some 0x07FF ∧ Spec.ramCell 0x1FFE#16 ≠ Spec.ramCell 0x1FFF#16 ∧
    Spec.ramCell 0x4018#16 = none ∧
    Spec.storeMode (.inc (.abs 0x2007#16)) = some (.abs 0x2007#16) ∧
    (∃ t, exec (.inc (.abs 0x2007#16)) State.reset = .next t) ∧
    (∃ t, exec (.sta (.abs 0x2004#16)) State.reset = .next t) :=
  ⟨rfl, ⟨_, rfl⟩, ⟨_, rfl⟩, ⟨_, rfl⟩, rfl, rfl, by decide, by decide, by decide, by decide, by decide, rfl,
    ⟨_, rfl⟩, ⟨_, rfl⟩⟩

theorem witness_PushFrame :
    (∃ t, exec .pha State.reset = .next t) ∧ (∃ t, exec .php State.reset = .next t) ∧
    (∃ t, exec (.jsr 0xFFFF#16) { State.reset with sp := 0x00#8 } = .next t) ∧
    (∃ t, exec .brk { State.reset with sp := 0x01#8 } = .next t) ∧
    (Spec.mnemonic .brk, [Spec.cell 0x01#8, Spec.cell (0x01#8 - 1#8), Spec.cell (0x01#8 - 2#8)]) =
      ("BRK", [0x0101, 0x0100, 0x01FF]) ∧ State.reset.Nrom :=
  ⟨⟨_, rfl⟩, ⟨_, rfl⟩, ⟨_, rfl⟩, ⟨_, rfl⟩, rfl, rfl⟩

theorem witness_PpuPortWrites :
    State.reset.ppu.w = false ∧
      ({ State.reset with ppu := { Ppu.reset with w := true } }).ppu.w = true := by decide

/-- The two sides of the palette's border outside rendering, and a state in rendering. -/
theorem witness_PpuDataPort :
    (let s := { State.reset with ppu := { Ppu.reset with v := 0x7EFF#15 } }
     s.ppu.rendering = false ∧
       (BitVec.ofNat 14 (s.ppu.v.toNat % 16384) : BitVec 14).toNat < 0x3F00) ∧
    (let s := { State.reset with ppu := { Ppu.reset with v := 0x3F00#15 } }
     s.ppu.rendering = false ∧
       0x3F00 ≤ (BitVec.ofNat 14 (s.ppu.v.toNat % 16384) : BitVec 14).toNat) ∧
    renderingState.ppu.rendering = true := by decide

theorem witness_PpuAddressSpace :
    Cart.blank.variant = .nrom ∧ Ppu.reset.wf = true ∧ Cart.blank.wf = true ∧
      ({ Ppu.reset with vram := [(0x7FF, 0xFF#8)], pal := [(31, 0x3F#8)] } : Ppu).wf = true ∧
      ({ Cart.blank with chr := [(0x1FFF, 0xFF#8)], chrRam := false }).wf = true := by decide

/-- The pages at the ends of the two ranges, and a DMA that a store of A starts. -/
theorem witness_OamPortAndDma :
    State.reset.Nrom ∧ ((0x1F#8).toNat < 0x20 ∨ 0x41 ≤ (0x1F#8).toNat) ∧
      ((0x41#8).toNat < 0x20 ∨ 0x41 ≤ (0x41#8).toNat) ∧ Memory.wf 256 State.reset.ppu.oam = true ∧
      ∃ t, memWrite 0x4014#16 State.reset.a State.reset = .ok t :=
  ⟨by decide, by decide, by decide, by decide, memWrite_ok _ _ (by decide)⟩

theorem witness_ControllerProtocol :
    (0xFF#8).getLsbD 0 = true ∧ (0xFE#8).getLsbD 0 = false := by decide

theorem witness_ApuRegisters :
    State.reset.apu.mode = false ∧
      ({ State.reset with apu := { Apu.reset with mode := true } }).apu.mode = true := by decide

theorem witness_ApuFramePeriod :
    Apu.reset.fc = 0 ∧ Apu.reset.mode = false ∧ ({ Apu.reset with mode := true }).mode = true ∧
      ({ Apu.reset with mode := true }).fc = 0 := by decide

theorem witness_FrameLength :
    (State.reset.ppu.scanline = 0 ∧ State.reset.ppu.dot = 0) ∧
    ((atRaster 0 0 true 0#8).ppu.scanline = 0 ∧ (atRaster 0 0 true 0#8).ppu.dot = 0) := by decide

theorem witness_FrameCycleCounts :
    (State.reset.ppu.scanline = 0 ∧ State.reset.ppu.dot = 0 ∧ State.reset.ppu.odd = false) ∧
    ((atRaster 0 1 true 0#8).ppu.scanline = 0 ∧ (atRaster 0 1 true 0#8).ppu.dot = 1 ∧
      (atRaster 0 1 true 0#8).ppu.odd = true) ∧
    ((atRaster 261 339 true 0#8).ppu.rasterOk = true ∧ (atRaster 261 340 false 0#8).ppu.rasterOk = true ∧
      (atRaster 0 0 false 0#8).ppu.rasterOk = true) := by decide

/-- Steps that pass dot 1 of scanline 241 with the dots 2 and 4 next, and of scanline 261. -/
theorem witness_VblankAndPreRender :
    (match step (atRaster 240 340 false 0x80#8) with
      | .next t => some (t.nmiPending, t.ppu.scanline, t.ppu.dot)
      | .fault _ => none
      | .refused _ => none) = some (true, 241, 2) ∧
    (match step (atRaster 241 1 false 0x80#8) with
      | .next t => some (t.nmiPending, t.ppu.scanline, t.ppu.dot)
      | .fault _ => none
      | .refused _ => none) = some (true, 241, 4) ∧
    (match step (atRaster 260 340 false 0#8) with
      | .next t => some (t.ppu.scanline, t.ppu.dot)
      | .fault _ => none
      | .refused _ => none) = some (261, 2) ∧
    (match step (atRaster 261 1 true 0#8) with
      | .next t => some (t.ppu.scanline, t.ppu.dot)
      | .fault _ => none
      | .refused _ => none) = some (261, 4) ∧
    (atRaster 240 340 false 0x80#8).nmiPending = false := by decide

theorem witness_InvAtReset :
    Params.default.wf = true ∧ Cart.blank.wf = true ∧
    ({ Params.default with undefLen := 3, undefCycles := 1 }).wf = true ∧
    ({ Cart.blank with prgSize := 0x8000, chrRam := false }).wf = true := by decide

theorem witness_StepKeepsInv :
    State.reset.Inv ∧ (∃ t, step State.reset = .next t) ∧ (∃ t, step renderingState = .next t) :=
  ⟨by decide, ⟨_, rfl⟩, ⟨_, rfl⟩⟩

theorem witness_StepKeepsConstants : ∃ t, step renderingState = .next t := ⟨_, rfl⟩

/-- Two states that differ in more than the CPU, with the same cartridge constants. -/
theorem witness_ResetValues :
    State.reset.Nrom ∧ State.reset.cart.chrRam = true ∧
      SameRom State.reset { State.reset with
        a := 0xFF#8, ram := [(0, 0xFF#8)], cart := { Cart.blank with chr := [(0, 0xFF#8)] } } := by decide

/-- One input for each clause: too short; another magic; a size that does not fit; another mapper; each
way a header of mapper 0 is refused; and an accepted one, with a trainer and 32 KB. -/
theorem witness_ImageLoading :
    (List.replicate 15 (0#8)).length < 16 ∧
    (List.replicate 16 (0#8)).take 4 ≠ [0x4E#8, 0x45#8, 0x53#8, 0x1A#8] ∧
    (List.replicate 8 (0#8)).length = 8 ∧
    (¬ ([] : List Byte).length = (if (0#8).getLsbD 2 then 512 else 0) + (1#8).toNat * 16384 +
      (0#8).toNat * 8192) ∧
    ((∃ body : List Byte, body.length = (if (0x10#8).getLsbD 2 then 512 else 0) +
      (1#8).toNat * 16384 + (0#8).toNat * 8192) ∧ (0#8).toNat / 16 * 16 + (0x10#8).toNat / 16 ≠ 0) ∧
    ((0#8).toNat / 16 * 16 + (0x08#8).toNat / 16 = 0 ∧ (0#8).toNat = 0 ∧ 2 < (3#8).toNat ∧
      1 < (2#8).toNat ∧ (0x08#8).getLsbD 3 = true) ∧
    ((∃ body : List Byte, body.length = (if (0x04#8).getLsbD 2 then 512 else 0) +
      (2#8).toNat * 16384 + (0#8).toNat * 8192) ∧ (0#8).toNat / 16 * 16 + (0x04#8).toNat / 16 = 0 ∧
      ((2#8).toNat = 1 ∨ (2#8).toNat = 2) ∧ (0#8).toNat ≤ 1 ∧ (0x04#8).getLsbD 3 = false) :=
  ⟨by decide, by decide, by decide, by decide, ⟨⟨List.replicate _ 0#8, List.length_replicate⟩, by decide⟩,
    by decide, ⟨List.replicate _ 0#8, List.length_replicate⟩, by decide⟩

/-- A read and a write with side effects, a refused access, a DMA with the invariant's state, the two ends
of RAM, and the save and load. -/
theorem witness_HostAccessSaveAndLoad :
    (∃ b t, memRead 0x2002#16 State.reset = .ok (b, t)) ∧
    (∃ t, memWrite 0x2006#16 0x3F#8 State.reset = .ok t) ∧
    memRead 0x2007#16 renderingState = .error .ppuDataWhileRendering ∧
    memWrite 0x2007#16 0x00#8 renderingState = .error .ppuDataWhileRendering ∧
    (∃ t, hostWrite 0x4014#16 0x02#8 State.reset = .ok t) ∧
    (State.reset.Inv ∧ (0x0000#16).toNat < 0x2000 ∧ (0x1FFF#16).toNat < 0x2000) ∧
    SameRom State.reset { State.reset with a := 0xFF#8 } ∧
    ({ version := 0, payload := none } : SavedState).version ≠ saveVersion := by
  refine ⟨⟨_, _, rfl⟩, ⟨_, rfl⟩, rfl, rfl, ?_, by decide, by decide, by decide⟩
  obtain ⟨t, ht⟩ := memWrite_ok 0x4014#16 0x02#8 (s := State.reset) (by decide)
  exact ⟨settleDma t, by simp only [hostWrite, ht]⟩

/-- The state after reset meets the invariant. -/
theorem reset_inv : State.reset.Inv := by decide

end Sys2Proof.Tests
end

/-! PROOFS for O58: what the host's reset gives (10_state.md R38, 70_reset_and_hazards.md R330). -/

namespace Sys2Proof.Machine

/-- An assembled word as a sum (00_scope.md R8). -/
theorem word_toNat (h l : Byte) : (word h l).toNat = 256 * h.toNat + l.toNat := by
  rw [word, BitVec.toNat_append, ← Nat.shiftLeft_add_eq_or_of_lt l.isLt, Nat.shiftLeft_eq,
    Nat.mul_comm]

theorem low_word (h l : Byte) : Spec.low (word h l) = l := by
  apply BitVec.eq_of_toNat_eq
  have hl := l.isLt
  rw [Spec.low, word_toNat, BitVec.toNat_ofNat]
  omega

theorem high_word (h l : Byte) : Spec.high (word h l) = h := by
  apply BitVec.eq_of_toNat_eq
  have hh := h.isLt
  have hl := l.isLt
  rw [Spec.high, word_toNat, BitVec.toNat_ofNat]
  omega

/-- What `peek` shows of the cartridge window of the no-bank-switch cartridge. -/
theorem peek_cart_nrom {s : State} (hn : s.Nrom) {a : Word} (h : 0x4018 ≤ a.toNat) :
    peek s a = some (s.cart.cpuRead s.params.openBus a).1 := by
  simp only [peek, memRead_cart_nrom hn h, Cart.cpuRead_nrom hn]

@[simp] theorem Cart.reset_variant (c : Cart) : c.reset.variant = c.variant := by
  cases hv : c.variant <;> simp only [Cart.reset, hv]

/-- The reset of the no-bank-switch cartridge (R36): CHR-RAM is cleared, the bank registers are
empty, and the rest stays. -/
theorem Cart.reset_nrom {c : Cart} (h : c.variant = .nrom) :
    c.reset = { c with chr := if c.chrRam then [] else c.chr, regs := [] } := by
  simp only [Cart.reset, h]

/-- A cartridge's reset depends on its constants only: not on the bank registers, and not on CHR-RAM. -/
theorem Cart.reset_eq_of_constants {c d : Cart} (h : d = { c with regs := d.regs, chr := d.chr })
    (hchr : c.chrRam = false → d.chr = c.chr) : d.reset = c.reset := by
  have hc : (if c.chrRam then [] else d.chr) = if c.chrRam then [] else c.chr := by
    cases hr : c.chrRam with
    | true => rfl
    | false => simp only [hchr hr]
  rw [h]
  simp only [Cart.reset, hc]

/-- On the no-bank-switch cartridge the reads of the reset vector leave the reset cartridge as it is. -/
theorem hostReset_cart_nrom {s : State} (hn : s.Nrom) : (hostReset s).cart = s.cart.reset := by
  have hr : s.cart.reset.variant = .nrom := (Cart.reset_variant _).trans hn
  simp only [hostReset, State.resetWith, resetVector, Cart.cpuRead_nrom hr]

/-- The host's reset takes `PC` from the bytes at $FFFC and $FFFD (R330 step 2). -/
theorem hostReset_pc_nrom {s : State} (hn : s.Nrom) :
    (hostReset s).pc = word ((hostReset s).cart.cpuRead s.params.openBus 0xFFFD#16).1
      ((hostReset s).cart.cpuRead s.params.openBus 0xFFFC#16).1 := by
  have hr : s.cart.reset.variant = .nrom := (Cart.reset_variant _).trans hn
  rw [hostReset_cart_nrom hn]
  simp only [hostReset, State.resetWith, resetVector, Cart.cpuRead_nrom hr]

theorem hostReset_nrom {s : State} (hn : s.Nrom) : (hostReset s).Nrom := by
  rw [State.Nrom, hostReset_cart_nrom hn, Cart.reset_variant]
  exact hn

/-- After reset no source of the interrupt line is up: the frame flag is clear, and the no-bank-switch
cartridge has no interrupt output (R28, R82). -/
theorem hostReset_irqPending_nrom {s : State} (hn : s.Nrom) : (hostReset s).irqPending = false := by
  rw [State.irqPending, Cart.irq_nrom (hostReset_nrom hn)]
  rfl

/-- After reset the vector's bytes, read through the bus, are those of `PC` (R38). -/
theorem peek_hostReset_vector {s : State} (hn : s.Nrom) :
    peek (hostReset s) 0xFFFC#16 = some (Spec.low (hostReset s).pc) ∧
      peek (hostReset s) 0xFFFD#16 = some (Spec.high (hostReset s).pc) := by
  rw [hostReset_pc_nrom hn, low_word, high_word]
  exact ⟨peek_cart_nrom (hostReset_nrom hn) (by decide), peek_cart_nrom (hostReset_nrom hn) (by decide)⟩

/-- The reset clears CHR-RAM (R36). -/
theorem hostReset_chr_nrom {s : State} (hn : s.Nrom) (hr : s.cart.chrRam = true) (k : Nat) :
    (hostReset s).cart.chr.read k = 0#8 := by
  rw [hostReset_cart_nrom hn, Cart.reset_nrom hn, hr]
  rfl

/-- The reset keeps the cartridge's constants and the parameters (R330). -/
theorem hostReset_sameRom_nrom {s : State} (hn : s.Nrom) : SameRom s (hostReset s) := by
  rw [SameRom, hostReset_cart_nrom hn, Cart.reset_nrom hn]
  exact ⟨rfl, fun hr => by simp only [hr]; rfl, rfl⟩

/-- The reset depends on the parameters and the cartridge's constants only (R330), for every variant. -/
theorem hostReset_eq_of_sameRom {s t : State} (h : SameRom s t) : hostReset t = hostReset s := by
  obtain ⟨hcart, hchr, hparams⟩ := h
  simp only [hostReset, State.resetWith, hparams, Cart.reset_eq_of_constants hcart hchr]

/-- Settles O58: the table of R38 field by field, the vector and the cartridge by their lemmas above. -/
theorem resetValues : Obligations.ResetValues := by
  refine ⟨fun s hn => ?_, fun s t h => hostReset_eq_of_sameRom h⟩
  obtain ⟨hlo, hhi⟩ := peek_hostReset_vector hn
  exact ⟨rfl, rfl, rfl, rfl, rfl, hlo, hhi, rfl, hostReset_irqPending_nrom hn, rfl, rfl, rfl,
    fun _ => rfl, rfl, rfl, rfl, rfl, rfl, rfl, rfl, rfl, rfl, rfl, rfl, rfl, rfl, rfl,
    fun _ => ⟨rfl, rfl, rfl, rfl⟩, rfl, rfl, hostReset_chr_nrom hn, rfl, hostReset_sameRom_nrom hn⟩

end Sys2Proof.Machine

/-! PROOFS for O35: the RAM window and its mirrors (20_memory.md R61). -/

namespace Sys2Proof.Machine

/-- What a read gives after a write to a canonical array: both cases in one equation. -/
theorem Memory.read_write {size : Nat} {m : Memory} (h : Memory.wf size m = true) (a c : Nat)
    (v : Byte) : (m.write a v).read c = if c = a then v else m.read c := by
  split
  case isTrue hc => rw [hc, Memory.read_write_same h]
  case isFalse hc => exact Memory.read_write_other m v hc

/-- Settles O35: below $2000 both accesses go to the cell of the address modulo 2048 (`memRead_ram`,
`memWrite_ram`), so the four images are one cell of the array. -/
theorem ramMirrors : Obligations.RamMirrors := by
  intro a v s hwf ha
  refine ⟨memRead_ram ha, s.setRam (s.ram.write (a.toNat % 2048) v), memWrite_ram v ha, rfl,
    fun b hb => ?_⟩
  rw [memRead_ram hb, State.setRam_ram, Memory.read_write hwf]

end Sys2Proof.Machine

/-! PROOFS for O3: the opcode byte alone selects the row (30_encoding.md R111, R112). -/

namespace Sys2Proof

open Laws.HeadByte (rowOperands)

/-- The instruction that a row gives at two operand bytes, the lower address first (R101, R103). -/
def OpcodeRow.instr : OpcodeRow → Byte → Byte → Instr
  | .f1 i, _, _ => i
  | .f2 i, b1, _ => i b1
  | .f3 i, b1, b2 => i (Machine.word b2 b1)

theorem rowOperands_le_two (r : OpcodeRow) : rowOperands r ≤ 2 := by
  cases r <;> simp [rowOperands]

/-- On three bytes the decoder never runs out of operands: it takes those that the row asks for. -/
theorem decode_three_bytes (op b1 b2 : Byte) (rest : List Byte) :
    decode (op :: b1 :: b2 :: rest) = .ok ((opcodeRow op).instr b1 b2,
      (op :: b1 :: b2 :: rest).drop (1 + rowOperands (opcodeRow op))) := by
  simp only [decode]
  cases opcodeRow op <;> rfl

/-- Two instructions that agree in all that a row of the table fixes. -/
structure SameOpcodeRow (i j : Instr) : Prop where
  opcode : i.opcode = j.opcode
  wf : i.wf = j.wf
  length : i.length = j.length
  mnemonic : Spec.mnemonic i = Spec.mnemonic j
  hasMem : (Spec.memMode i).isSome = (Spec.memMode j).isSome

/-- The operand field of the row changes nothing that a row of the table fixes. -/
def OpcodeRow.OperandFree : OpcodeRow → Prop
  | .f1 _ => True
  | .f2 i => ∀ b c, SameOpcodeRow (i b) (i c)
  | .f3 i => ∀ v w, SameOpcodeRow (i v) (i w)

theorem OpcodeRow.OperandFree.instr {r : OpcodeRow} (h : r.OperandFree) (b1 b2 c1 c2 : Byte) :
    SameOpcodeRow (r.instr b1 b2) (r.instr c1 c2) := by
  cases r with
  | f1 i => exact ⟨rfl, rfl, rfl, rfl, rfl⟩
  | f2 i => exact h b1 c1
  | f3 i => exact h _ _

/-- Each row with an operand field is one constructor at one form, whatever the operand is. -/
theorem opcodeMap_operandFree : ∀ r ∈ opcodeMap, r.OperandFree := by
  simp only [opcodeMap, opcodeRow0, opcodeRow1, opcodeRow2, opcodeRow3, opcodeRow4, opcodeRow5,
    opcodeRow6, opcodeRow7, opcodeRow8, opcodeRow9, opcodeRowA, opcodeRowB, opcodeRowC, opcodeRowD,
    opcodeRowE, opcodeRowF, List.forall_mem_append, List.forall_mem_cons, List.not_mem_nil,
    false_implies, implies_true, and_true, true_and, OpcodeRow.OperandFree]
  and_intros
  all_goals exact fun _ _ => ⟨rfl, rfl, rfl, rfl, rfl⟩

theorem opcodeRow_operandFree (op : Byte) : (opcodeRow op).OperandFree := by
  rw [opcodeRow, List.getD_eq_getElem?_getD]
  cases h : opcodeMap[op.toNat]? with
  | none => exact trivial
  | some r => exact opcodeMap_operandFree r (List.mem_of_getElem? h)

/-- The row that stands at an opcode byte is that opcode's own, at the operand zero. -/
theorem opcodeRow_instr_zero : ∀ op : Byte,
    ((opcodeRow op).instr 0#8 0#8).opcode = op ∧ ((opcodeRow op).instr 0#8 0#8).wf = true ∧
      ((opcodeRow op).instr 0#8 0#8).length = 1 + rowOperands (opcodeRow op) := by decide

/-- Settles O3: three bytes decode to the row's instruction at the operand bytes (`decode_three_bytes`),
which agrees in all that a row fixes with the row's instruction at the operand zero. -/
theorem opcodeAloneSelectsRow : Obligations.OpcodeAloneSelectsRow := by
  intro op
  obtain ⟨hop, hwf, hlen⟩ := opcodeRow_instr_zero op
  have hle := rowOperands_le_two (opcodeRow op)
  refine ⟨Spec.mnemonic ((opcodeRow op).instr 0#8 0#8), 1 + rowOperands (opcodeRow op),
    (Spec.memMode ((opcodeRow op).instr 0#8 0#8)).isSome, by omega, by omega,
    fun b1 b2 rest => ⟨_, decode_three_bytes op b1 b2 rest, ?_⟩⟩
  have hrow := (opcodeRow_operandFree op).instr b1 b2 0#8 0#8
  exact ⟨hrow.opcode.trans hop, hrow.length.trans hlen, hrow.mnemonic, hrow.hasMem, hrow.wf.trans hwf⟩

end Sys2Proof

/-! PROOFS for O34: the stack and the page-zero pointers through the bus (40_addressing_modes.md R133,
R134; 00_scope.md R11). -/

namespace Sys2Proof.Machine

/-! ### The addresses and bytes of the rules as the model writes them -/

theorem zext16_eq_ofNat (b : Byte) : zext16 b = BitVec.ofNat 16 b.toNat :=
  (BitVec.ofNat_toNat 16 b).symm

/-- `$0100 + S`, added as integers (R133). -/
theorem stackAddr_eq_ofNat (sp : Byte) :
    0x0100#16 + zext16 sp = BitVec.ofNat 16 (0x100 + sp.toNat) := by
  rw [zext16_eq_ofNat, BitVec.ofNat_add]

theorem byte_succ_toNat (b : Byte) : (b + 1#8).toNat = (b.toNat + 1) % 256 :=
  BitVec.toNat_add b 1#8

theorem byte_succ_eq_ofNat (b : Byte) : b + 1#8 = BitVec.ofNat 8 ((b.toNat + 1) % 256) := by
  apply BitVec.eq_of_toNat_eq
  rw [byte_succ_toNat, BitVec.toNat_ofNat]
  omega

/-- The decrement of `S` modulo 256 is the addition of 255 (R133). -/
theorem byte_pred_eq_ofNat (b : Byte) : b - 1#8 = BitVec.ofNat 8 ((b.toNat + 255) % 256) := by
  apply BitVec.eq_of_toNat_eq
  rw [BitVec.toNat_sub, BitVec.toNat_ofNat, BitVec.toNat_ofNat]
  omega

theorem hi8_eq_high (w : Word) : hi8 w = Spec.high w := by
  apply BitVec.eq_of_toNat_eq
  rw [hi8, Spec.high, BitVec.extractLsb'_toNat, BitVec.toNat_ofNat, Nat.shiftRight_eq_div_pow]

theorem lo8_eq_low (w : Word) : lo8 w = Spec.low w := by
  apply BitVec.eq_of_toNat_eq
  rw [lo8, Spec.low, BitVec.extractLsb'_toNat, BitVec.toNat_ofNat, Nat.shiftRight_zero, Nat.mod_mod]

/-! ### The stack: a read in any state, and the 16-bit operations -/

/-- A bus read of the stack page is a read of its RAM cell and has no side effect (R61, R66). -/
theorem memRead_stack (sp : Byte) (s : State) :
    memRead (0x0100#16 + zext16 sp) s = .ok (s.ram.read (stackCell sp), s) := by
  have hlt := stackCell_lt sp
  have ha := stackAddr_toNat sp
  rw [memRead_ram (by omega), ha, Nat.mod_eq_of_lt hlt]

theorem push16_eq (w : Word) (s : State) :
    push16 w s = push8 (Spec.low w) (push8 (Spec.high w) s) := by
  rw [push16, hi8_eq_high, lo8_eq_low]

theorem pull16_toNat (s : State) :
    (pull16 s).1.toNat = (pull8 (pull8 s).2).1.toNat * 256 + (pull8 s).1.toNat := by
  rw [Nat.mul_comm]
  exact word_toNat _ _

/-- Settles O34: both pages are RAM, so each operation is the bus access of its rule (`push8_bus`,
`memRead_stack`, `zpRead16_bus`) at the address that the arithmetic above gives. -/
theorem stackAndPointersThroughBus : Obligations.StackAndPointersThroughBus := by
  refine ⟨fun v s => ?push, fun s => ?pull, fun p s => ?pointer, fun w s =>
    ⟨push16_eq w s, pull16_toNat s, rfl⟩⟩
  case push =>
    obtain ⟨t, hwrite, hpush⟩ := push8_bus v s
    rw [stackAddr_eq_ofNat] at hwrite
    rw [byte_pred_eq_ofNat] at hpush
    exact ⟨t, hwrite, hpush⟩
  case pull =>
    have hread := memRead_stack (s.sp + 1#8) s
    rw [stackAddr_eq_ofNat, byte_succ_toNat] at hread
    rw [← byte_succ_eq_ofNat]
    exact ⟨_, hread, pull8_eq s⟩
  case pointer =>
    obtain ⟨l, h, hlow, hhigh, hzp⟩ := zpRead16_bus p s
    rw [zext16_eq_ofNat] at hlow
    rw [zext16_eq_ofNat, byte_succ_toNat] at hhigh
    refine ⟨l, h, hlow, hhigh, ?_⟩
    rw [hzp, word_toNat, Nat.mul_comm]

end Sys2Proof.Machine

/-! PROOFS for O11, O12 and O13: loads, stores and transfers (41_load_store_transfer.md R140 to R151). -/

namespace Sys2Proof.Machine

open Spec (operandRead memMode pageCrossOpcodes surcharge baseCycles done zn)

/-! ### The costs and flags of the statements as the model writes them -/

/-- The surcharge of R351 as the model adds it: the page-cross bit, where mode and opcode have one. -/
theorem surcharge_eq_toNat (i : Instr) (s : State) :
    surcharge i s =
      (memMode i).elim 0 fun m => (pageCrossOpcodes.contains i.opcode && crossed m s).toNat := by
  rw [surcharge]
  cases memMode i with
  | none => rfl
  | some m => exact (Bool.cond_eq_ite ..).symm

/-- An opcode outside the list of R351 takes no surcharge in any state. -/
theorem surcharge_eq_zero {i : Instr} (h : pageCrossOpcodes.contains i.opcode = false) (s : State) :
    surcharge i s = 0 := by
  rw [surcharge_eq_toNat, h]
  cases memMode i <;> rfl

/-- What the table and R351 give `i`, begun in `s`: its length and its cost. -/
structure Timing (i : Instr) (s : State) (len n : Nat) : Prop where
  length : i.length = len
  cost : baseCycles i.opcode + surcharge i s = n

/-- The model's end of an instruction is that of the statements, where length and cost are the table's. -/
theorem Timing.finish_eq_done {i : Instr} {s : State} {len n : Nat} (h : Timing i s len n) (u : State) :
    finish len n u = done i s u := by
  obtain ⟨rfl, rfl⟩ := h
  rfl

theorem Flags.setZN_eq_zn (f : Flags) (v : Byte) : f.setZN v = zn f v := by
  have hz : (v = 0#8) ↔ v.toNat = 0 := by simp [← BitVec.toNat_inj]
  have hn : v.getLsbD 7 = decide (128 ≤ v.toNat) := BitVec.msb_eq_decide v
  simp only [Flags.setZN, zn, hz, hn]

theorem loadA_eq (v : Byte) (s : State) : loadA v s = { s with a := v, p := zn s.p v } := by
  rw [← Flags.setZN_eq_zn]; rfl

theorem loadX_eq (v : Byte) (s : State) : loadX v s = { s with x := v, p := zn s.p v } := by
  rw [← Flags.setZN_eq_zn]; rfl

theorem loadY_eq (v : Byte) (s : State) : loadY v s = { s with y := v, p := zn s.p v } := by
  rw [← Flags.setZN_eq_zn]; rfl

/-! ### The shapes of instructions, ended as the statements end them -/

theorem loadOperand_of_operandRead {o : ReadOperand} {s t : State} {b : Byte}
    (h : operandRead o s = some (b, t)) : loadOperand o s = .ok (b, t) := by
  cases o with
  | imm c => cases h; rfl
  | mem m =>
    simp only [operandRead] at h
    split at h
    · next r hr => cases h; exact hr
    · cases h

/-- A read instruction with the table's timing. -/
theorem readInstr_done {i : Instr} {o : ReadOperand} {f : Byte → State → State} {s t : State} {b : Byte}
    (hi : Timing i s (readLength o) (readCost o s)) (h : operandRead o s = some (b, t)) :
    readInstr o f s = .next (done i s (f b t)) := by
  rw [readInstr_next (loadOperand_of_operandRead h), hi.finish_eq_done]

/-- The tables have at the opcode of `i` a store through `m`: its length, the base cost of the class
"write" (R352), and no surcharge (R351). -/
structure StoreRow (i : Instr) (m : MemMode) : Prop where
  length : i.length = memLength m
  base : baseCycles i.opcode = writeCycles m
  noSurcharge : pageCrossOpcodes.contains i.opcode = false

/-- A store with the table's timing; a write leaves the flags alone (`memWrite_same`). -/
theorem storeInstr_done {i : Instr} {m : MemMode} {v : Byte} {s t : State} (hi : StoreRow i m)
    (h : memWrite (effAddr m s) v s = .ok t) :
    storeInstr m v s = .next (done i s t) ∧ t.p = s.p ∧ surcharge i s = 0 := by
  have hsur := surcharge_eq_zero hi.noSurcharge s
  have ht : Timing i s (memLength m) (writeCycles m) := ⟨hi.length, by rw [hi.base, hsur]; rfl⟩
  refine ⟨by rw [storeInstr_next h, ht.finish_eq_done], ?_, hsur⟩
  rw [memWrite_same h]

/-- A register-only instruction: one byte, two cycles. -/
theorem registerInstr_done {i : Instr} {s : State} (hi : Timing i s 1 2) (f : State → State) :
    registerInstr f s = .next (done i s (f s)) := by
  rw [registerInstr, hi.finish_eq_done]

/-! ### Loads -/

theorem lda_timing (m : AluForm) (s : State) :
    Timing (.lda m) s (readLength (aluOperand m)) (readCost (aluOperand m) s) := by
  cases m <;> exact ⟨rfl, by rw [surcharge_eq_toNat]; rfl⟩

theorem ldx_timing (m : LdxForm) (s : State) :
    Timing (.ldx m) s (readLength (ldxOperand m)) (readCost (ldxOperand m) s) := by
  cases m <;> exact ⟨rfl, by rw [surcharge_eq_toNat]; rfl⟩

theorem ldy_timing (m : LdyForm) (s : State) :
    Timing (.ldy m) s (readLength (ldyOperand m)) (readCost (ldyOperand m) s) := by
  cases m <;> exact ⟨rfl, by rw [surcharge_eq_toNat]; rfl⟩

/-- Settles O11: the three loads are read instructions (`readInstr_done`) with the table's timing, and
put the operand in their register (`loadA_eq`, `loadX_eq`, `loadY_eq`). -/
theorem loadResults : Obligations.LoadResults := by
  refine ⟨fun m s t b h => ?lda, fun m s t b h => ?ldx, fun m s t b h => ?ldy, fun b w => ⟨rfl, rfl, rfl⟩⟩
  case lda => rw [← loadA_eq]; exact readInstr_done (lda_timing m s) h
  case ldx => rw [← loadX_eq]; exact readInstr_done (ldx_timing m s) h
  case ldy => rw [← loadY_eq]; exact readInstr_done (ldy_timing m s) h

/-! ### Stores -/

theorem sta_storeRow (m : StaForm) : StoreRow (.sta m) (staMode m) := by
  cases m <;> exact ⟨rfl, rfl, rfl⟩

theorem stx_storeRow (m : StxForm) : StoreRow (.stx m) (stxMode m) := by
  cases m <;> exact ⟨rfl, rfl, rfl⟩

theorem sty_storeRow (m : StyForm) : StoreRow (.sty m) (styMode m) := by
  cases m <;> exact ⟨rfl, rfl, rfl⟩

/-- Settles O12: each form of the three stores is a store of the table's length and base cost, and its
opcode is none of R351's list, so `storeInstr_done` gives the next state. -/
theorem storeResults : Obligations.StoreResults :=
  ⟨fun m _ _ h => storeInstr_done (sta_storeRow m) h, fun m _ _ h => storeInstr_done (stx_storeRow m) h,
    fun m _ _ h => storeInstr_done (sty_storeRow m) h, fun _ _ => ⟨rfl, rfl, rfl⟩⟩

/-! ### Transfers -/

/-- Settles O13: the six are register-only instructions; five load their target, and TXS sets `S`. -/
theorem transferResults : Obligations.TransferResults := by
  intro s
  rw [← loadX_eq, ← loadY_eq, ← loadA_eq, ← loadA_eq, ← loadX_eq]
  exact ⟨registerInstr_done ⟨rfl, rfl⟩ _, registerInstr_done ⟨rfl, rfl⟩ _,
    registerInstr_done ⟨rfl, rfl⟩ _, registerInstr_done ⟨rfl, rfl⟩ _,
    registerInstr_done ⟨rfl, rfl⟩ _, registerInstr_done ⟨rfl, rfl⟩ fun t => t.setSp t.x, rfl, rfl⟩

end Sys2Proof.Machine

/-! PROOFS for O14 to O18: arithmetic, logic, compare and bit test (42_arithmetic_logic.md R160 to R169). -/

namespace Sys2Proof.Machine

open Spec (operandRead done zn compared)

/-! ### What the operand's read leaves alone -/

theorem SameButDevices.a {s t : State} (h : SameButDevices s t) : t.a = s.a := by rw [h]

theorem SameButDevices.x {s t : State} (h : SameButDevices s t) : t.x = s.x := by rw [h]

theorem SameButDevices.y {s t : State} (h : SameButDevices s t) : t.y = s.y := by rw [h]

theorem SameButDevices.p {s t : State} (h : SameButDevices s t) : t.p = s.p := by rw [h]

theorem operandRead_same {o : ReadOperand} {s t : State} {b : Byte}
    (h : operandRead o s = some (b, t)) : SameButDevices s t := by
  have hload := loadOperand_of_operandRead h
  cases o with
  | imm c => cases hload; rfl
  | mem m => exact memRead_same hload

/-! ### The timing of the forms -/

theorem alu_timing {f : AluForm → Instr} (hf : f ∈ [Instr.adc, .sbc, .and, .ora, .eor, .cmp])
    (m : AluForm) (s : State) :
    Timing (f m) s (readLength (aluOperand m)) (readCost (aluOperand m) s) := by
  revert f
  simp only [List.forall_mem_cons, List.not_mem_nil, false_implies, implies_true, and_true]
  cases m <;> and_intros <;> exact ⟨rfl, by rw [surcharge_eq_toNat]; rfl⟩

theorem cp_timing {f : CpForm → Instr} (hf : f ∈ [Instr.cpx, .cpy]) (m : CpForm) (s : State) :
    Timing (f m) s (readLength (cpOperand m)) (readCost (cpOperand m) s) := by
  revert f
  simp only [List.forall_mem_cons, List.not_mem_nil, false_implies, implies_true, and_true]
  cases m <;> exact ⟨⟨rfl, rfl⟩, rfl, rfl⟩

theorem bit_timing (m : BitForm) (s : State) :
    Timing (.bit m) s (readLength (bitOperand m)) (readCost (bitOperand m) s) := by
  cases m <;> exact ⟨rfl, rfl⟩

/-! ### The adder as integer arithmetic -/

theorem adderResult_eq_mod (a m : Byte) (c : Bool) :
    adderResult a m c = BitVec.ofNat 8 (adderSum a m c % 256) :=
  BitVec.eq_of_toNat_eq (by simp [adderResult])

/-- The mask of R160 keeps the sign bit. -/
theorem and_signMask_ne_zero_iff (b : Byte) : b &&& 0x80#8 ≠ 0#8 ↔ b.msb = true := by
  rw [show 0x80#8 = BitVec.twoPow 8 7 from rfl, BitVec.and_twoPow, BitVec.msb_eq_getLsbD_last]
  cases b.getLsbD 7 <;> simp

/-- The formula of R160 for V: both inputs differ in sign from the result exactly when the true signed
sum does not fit in a byte (R169). -/
theorem adder_overflow_iff (a b : Byte) (c : Bool) :
    (a ^^^ adderResult a b c) &&& (b ^^^ adderResult a b c) &&& 0x80#8 ≠ 0#8 ↔
      a.toInt + b.toInt + (c.toNat : Int) < -128 ∨ 127 < a.toInt + b.toInt + (c.toNat : Int) := by
  have hr : (adderResult a b c).toNat = (a.toNat + b.toNat + c.toNat) % 256 := BitVec.toNat_ofNat ..
  have ha := a.isLt
  have hb := b.isLt
  have hc := c.toNat_le
  rw [and_signMask_ne_zero_iff, BitVec.msb_and, BitVec.msb_xor, BitVec.msb_xor, BitVec.msb_eq_decide,
    BitVec.msb_eq_decide, BitVec.msb_eq_decide, hr, BitVec.toInt_eq_toNat_cond,
    BitVec.toInt_eq_toNat_cond]
  simp only [Bool.and_eq_true, bne_iff_ne, ne_eq, decide_eq_decide]
  omega

theorem addToA_eq (m : Byte) (s : State) :
    addToA m s = { s with
      a := adderResult s.a m s.p.c
      p := zn { s.p with
        c := decide (255 < adderSum s.a m s.p.c)
        v := decide ((s.a ^^^ adderResult s.a m s.p.c) &&& (m ^^^ adderResult s.a m s.p.c) &&&
          0x80#8 ≠ 0#8) } (adderResult s.a m s.p.c) } := by
  rw [← Flags.setZN_eq_zn]; rfl

/-- Settles O14: ADC is a read instruction that feeds the adder (`addToA_eq`); its overflow formula is
`adder_overflow_iff`. -/
theorem adcResult : Obligations.AdcResult := by
  refine ⟨fun m s t b h => ?result, fun b w => rfl, fun a b c => ?overflow⟩
  case result =>
    have hsame := operandRead_same h
    have hexec : exec (.adc m) s = .next (done (.adc m) s (addToA b t)) :=
      readInstr_done (alu_timing (by simp) m s) h
    rw [hexec, addToA_eq, hsame.a, hsame.p, adderResult_eq_mod]
    rfl
  case overflow =>
    have hover := adder_overflow_iff a b c
    rw [adderResult_eq_mod] at hover
    exact hover

/-! ### Subtraction on the same adder -/

theorem complement_toNat (b : Byte) : (b ^^^ 0xFF#8).toNat = 255 - b.toNat := by
  rw [show b ^^^ 0xFF#8 = ~~~b from BitVec.xor_allOnes, BitVec.toNat_not]

theorem complement_toInt (b : Byte) : (b ^^^ 0xFF#8).toInt = -1 - b.toInt := by
  rw [BitVec.toInt_eq_toNat_cond, BitVec.toInt_eq_toNat_cond, complement_toNat]
  omega

/-- Adding the complement subtracts with borrow `1 - C`, kept above zero by 256 (R161). -/
theorem adderSum_complement (a b : Byte) (c : Bool) :
    adderSum a (b ^^^ 0xFF#8) c = a.toNat + 256 - b.toNat - (1 - c.toNat) := by
  have hb := b.isLt
  have hc := c.toNat_le
  rw [adderSum, complement_toNat]
  omega

/-- The carry out of a subtraction says that there was no borrow (R161). -/
theorem adderSum_complement_carry_iff (a b : Byte) (c : Bool) :
    255 < adderSum a (b ^^^ 0xFF#8) c ↔ b.toNat + (1 - c.toNat) ≤ a.toNat := by
  rw [adderSum_complement]
  omega

theorem adderResult_complement (a b : Byte) (c : Bool) :
    adderResult a (b ^^^ 0xFF#8) c =
      BitVec.ofNat 8 ((a.toNat + 256 - b.toNat - (1 - c.toNat)) % 256) := by
  rw [adderResult_eq_mod, adderSum_complement]

/-- Settles O15: SBC feeds the adder with the complement, whose sum, carry and signed value are those of
the subtraction with borrow. -/
theorem sbcResult : Obligations.SbcResult := by
  refine ⟨fun m s t b h => ?result, fun b w => rfl, fun a b c => ?overflow⟩
  case result =>
    have hsame := operandRead_same h
    have hexec : exec (.sbc m) s = .next (done (.sbc m) s (addToA (b ^^^ 0xFF#8) t)) :=
      readInstr_done (alu_timing (by simp) m s) h
    rw [hexec, addToA_eq, hsame.a, hsame.p, adderResult_complement]
    simp only [adderSum_complement_carry_iff]
  case overflow =>
    have hdiff : a.toInt + (-1 - b.toInt) + (c.toNat : Int) =
        a.toInt - b.toInt - (1 - (c.toNat : Int)) := by
      omega
    have hover := adder_overflow_iff a (b ^^^ 0xFF#8) c
    rw [adderResult_complement, complement_toInt, hdiff] at hover
    exact hover

/-! ### Logic -/

/-- Settles O16: the three are read instructions that load `A` (`loadA_eq`) with their operation on `A`,
which the operand's read leaves alone. -/
theorem logicResults : Obligations.LogicResults := by
  refine ⟨fun m s t b h => ?_, fun b w => ⟨rfl, rfl, rfl⟩⟩
  rw [← loadA_eq, ← loadA_eq, ← loadA_eq, ← (operandRead_same h).a]
  exact ⟨readInstr_done (alu_timing (by simp) m s) h, readInstr_done (alu_timing (by simp) m s) h,
    readInstr_done (alu_timing (by simp) m s) h⟩

/-! ### Comparison -/

theorem byte_getLsbD_seven (b : Byte) : b.getLsbD 7 = decide (128 ≤ b.toNat) :=
  BitVec.msb_eq_decide b

theorem Flags.compare_eq_compared (f : Flags) (r m : Byte) : f.compare r m = compared f r m := by
  have hm := m.isLt
  have hdiff : (r - m).toNat = (r.toNat + 256 - m.toNat) % 256 := by
    rw [BitVec.toNat_sub]
    omega
  simp only [Flags.compare, compared, byte_getLsbD_seven, hdiff, ← BitVec.toNat_inj]

/-- Settles O17: the three are read instructions that set the comparison's flags
(`Flags.compare_eq_compared`) from a register which the operand's read leaves alone. -/
theorem compareResults : Obligations.CompareResults := by
  refine ⟨fun m s t b h => ?cmp, fun m s t b h => ?cpxy, fun b w => ⟨rfl, rfl⟩⟩
  case cmp =>
    rw [← Flags.compare_eq_compared, ← (operandRead_same h).a]
    exact readInstr_done (alu_timing (by simp) m s) h
  case cpxy =>
    rw [← Flags.compare_eq_compared, ← Flags.compare_eq_compared, ← (operandRead_same h).x,
      ← (operandRead_same h).y]
    exact ⟨readInstr_done (cp_timing (by simp) m s) h, readInstr_done (cp_timing (by simp) m s) h⟩

/-! ### Bit test -/

theorem Flags.bitTest_eq (f : Flags) (a m : Byte) :
    f.bitTest a m = { f with
      z := decide (a &&& m = 0#8)
      n := decide (m.toNat / 128 % 2 = 1)
      v := decide (m.toNat / 64 % 2 = 1) } := by
  simp only [Flags.bitTest, BitVec.getLsbD, Nat.testBit_eq_decide_div_mod_eq, Nat.reducePow]

/-- Settles O18: BIT is a read instruction that sets its flags (`Flags.bitTest_eq`) from the operand and
`A`, which the operand's read leaves alone. -/
theorem bitTestResult : Obligations.BitTestResult := by
  refine ⟨fun m s t b h => ?_, fun b w => rfl⟩
  rw [← Flags.bitTest_eq, ← (operandRead_same h).a]
  exact readInstr_done (bit_timing m s) h

end Sys2Proof.Machine

/-! PROOFS for O19, O20 and O21: increments, decrements, shifts and rotates (43_inc_dec_shift.md R180 to
R189). -/

namespace Sys2Proof.Machine

open Spec (ShiftKind modMode done zn)

/-! ### The read-modify-write instructions, ended as the statements end them -/

theorem modMode_eq_some_iff {o : ModOperand} {mode : MemMode} : modMode o = some mode ↔ o = .mem mode := by
  cases o <;> simp [modMode]

/-- The two accesses of a read-modify-write leave the flags alone. -/
theorem flags_of_memRead_memWrite {a a' : Word} {s t u : State} {b v : Byte}
    (hread : memRead a s = .ok (b, t)) (hwrite : memWrite a' v t = .ok u) : u.p = s.p := by
  rw [memWrite_same hwrite, (memRead_same hread).p]

/-- A read-modify-write of memory with the table's timing, whose step gives the result `r` and the flags
`p` from the byte read and the flags before. -/
theorem modifyInstr_mem_done {i : Instr} {o : ModOperand} {mode : MemMode} {n : Nat}
    {f : Byte → Flags → Byte × Flags} {s t u : State} {b r : Byte} {p : Flags}
    (hi : Timing i s (modLength o) n) (hmode : modMode o = some mode)
    (hread : memRead (effAddr mode s) s = .ok (b, t)) (hstep : f b s.p = (r, p))
    (hwrite : memWrite (effAddr mode s) r t = .ok u) :
    modifyInstr o n f s = .next (done i s { u with p := p }) := by
  obtain rfl := modMode_eq_some_iff.mp hmode
  rw [← (memRead_same hread).p] at hstep
  have hstore : storeResult (.mem mode) s (f b t.p).1 t = .ok u := by rw [hstep]; exact hwrite
  rw [modifyInstr_next (o := .mem mode) hread hstore, hi.finish_eq_done, hstep]
  rfl

/-- A read-modify-write of `A` with the table's timing. -/
theorem modifyInstr_acc_done {i : Instr} {n : Nat} {f : Byte → Flags → Byte × Flags} {s : State}
    {r : Byte} {p : Flags} (hi : Timing i s (modLength .acc) n) (hstep : f s.a s.p = (r, p)) :
    modifyInstr .acc n f s = .next (done i s { s with a := r, p := p }) := by
  rw [modifyInstr_next rfl rfl, hi.finish_eq_done, hstep]
  rfl

/-! ### Increments and decrements of memory -/

theorem incDec_timing {f : IncForm → Instr} (hf : f ∈ [Instr.inc, .dec]) (m : IncForm) (s : State) :
    Timing (f m) s (modLength (incOperand m)) (incCost m) := by
  revert f
  simp only [List.forall_mem_cons, List.not_mem_nil, false_implies, implies_true, and_true]
  cases m <;> constructor <;> exact ⟨rfl, by rw [surcharge_eq_zero rfl]; rfl⟩

theorem incStep_eq (m : Byte) (f : Flags) :
    incStep m f =
      (BitVec.ofNat 8 ((m.toNat + 1) % 256), zn f (BitVec.ofNat 8 ((m.toNat + 1) % 256))) := by
  rw [incStep, Flags.setZN_eq_zn, byte_succ_eq_ofNat]

theorem decStep_eq (m : Byte) (f : Flags) :
    decStep m f =
      (BitVec.ofNat 8 ((m.toNat + 255) % 256), zn f (BitVec.ofNat 8 ((m.toNat + 255) % 256))) := by
  rw [decStep, Flags.setZN_eq_zn, byte_pred_eq_ofNat]

/-- Settles O19: both are read-modify-writes (`modifyInstr_mem_done`) whose step is the wrapped sum with
1 or 255 (`incStep_eq`, `decStep_eq`). -/
theorem incDecMemoryResults : Obligations.IncDecMemoryResults := by
  refine ⟨fun m mode s t u b hmode hread => ⟨fun hwrite => ?inc, fun hwrite => ?dec⟩,
    fun b w => ⟨rfl, rfl⟩⟩
  case inc =>
    rw [flags_of_memRead_memWrite hread hwrite]
    exact ⟨modifyInstr_mem_done (incDec_timing (by simp) m s) hmode hread (incStep_eq b s.p) hwrite, rfl⟩
  case dec =>
    rw [flags_of_memRead_memWrite hread hwrite]
    exact ⟨modifyInstr_mem_done (incDec_timing (by simp) m s) hmode hread (decStep_eq b s.p) hwrite, rfl⟩

/-! ### Increments and decrements of the index registers -/

/-- Settles O20: the four are register-only instructions that load their register with its successor or
predecessor (`byte_succ_eq_ofNat`, `byte_pred_eq_ofNat`). -/
theorem indexIncDecResults : Obligations.IndexIncDecResults := by
  intro s
  dsimp only
  rw [← loadX_eq, ← loadY_eq, ← loadX_eq, ← loadY_eq, ← byte_succ_eq_ofNat, ← byte_succ_eq_ofNat,
    ← byte_pred_eq_ofNat, ← byte_pred_eq_ofNat]
  exact ⟨registerInstr_done ⟨rfl, rfl⟩ fun t => loadX (t.x + 1#8) t,
    registerInstr_done ⟨rfl, rfl⟩ fun t => loadY (t.y + 1#8) t,
    registerInstr_done ⟨rfl, rfl⟩ fun t => loadX (t.x - 1#8) t,
    registerInstr_done ⟨rfl, rfl⟩ fun t => loadY (t.y - 1#8) t, rfl⟩

/-! ### Shifts and rotates -/

/-- The model's step of each kind of shift. -/
def shiftStep : ShiftKind → Byte → Flags → Byte × Flags
  | .asl => aslStep
  | .lsr => lsrStep
  | .rol => rolStep
  | .ror => rorStep

theorem exec_shift (k : ShiftKind) (f : ShiftForm) (s : State) :
    exec (k.instr f) s = modifyInstr (shiftOperand f) (shiftCost f) (shiftStep k) s := by
  cases k <;> rfl

theorem shift_timing (k : ShiftKind) (f : ShiftForm) (s : State) :
    Timing (k.instr f) s (modLength (shiftOperand f)) (shiftCost f) := by
  cases k <;> cases f <;> exact ⟨rfl, by rw [surcharge_eq_zero rfl]; rfl⟩

/-- A left shift drops bit 7 and doubles the rest (R186). -/
theorem shiftLeft_one_eq_ofNat (m : Byte) : m <<< 1 = BitVec.ofNat 8 (m.toNat * 2 % 256) := by
  apply BitVec.eq_of_toNat_eq
  rw [BitVec.toNat_shiftLeft, BitVec.toNat_ofNat, Nat.shiftLeft_eq, Nat.mod_mod]

/-- A right shift halves and drops bit 0 (R187). -/
theorem shiftRight_one_eq_ofNat (m : Byte) : m >>> 1 = BitVec.ofNat 8 (m.toNat / 2) := by
  rw [← Nat.shiftRight_one, ← BitVec.toNat_ushiftRight, BitVec.ofNat_toNat, BitVec.setWidth_eq]

/-- The carry enters the bit 0 that a left shift leaves clear (R188). -/
theorem rotateLeft_eq_ofNat (m : Byte) (c : Bool) :
    m <<< 1 ||| bitByte c = BitVec.ofNat 8 (m.toNat * 2 % 256 + c.toNat) := by
  have hdisjoint : m <<< 1 &&& bitByte c = 0#8 := by
    cases c with
    | false => exact BitVec.and_zero
    | true =>
      rw [show bitByte true = BitVec.twoPow 8 0 from rfl, BitVec.and_twoPow]
      simp
  rw [← BitVec.add_eq_or_of_and_eq_zero _ _ hdisjoint, shiftLeft_one_eq_ofNat, BitVec.ofNat_add]
  cases c <;> rfl

/-- The carry enters the bit 7 that a right shift leaves clear (R189). -/
theorem rotateRight_eq_ofNat (m : Byte) (c : Bool) :
    m >>> 1 ||| bitByte c <<< 7 = BitVec.ofNat 8 (m.toNat / 2 + 128 * c.toNat) := by
  have hdisjoint : m >>> 1 &&& bitByte c <<< 7 = 0#8 := by
    cases c with
    | false => exact BitVec.and_zero
    | true =>
      rw [show bitByte true <<< 7 = BitVec.twoPow 8 7 from rfl, BitVec.and_twoPow]
      simp
  rw [← BitVec.add_eq_or_of_and_eq_zero _ _ hdisjoint, shiftRight_one_eq_ofNat, BitVec.ofNat_add]
  cases c <;> rfl

theorem byte_getLsbD_zero (b : Byte) : b.getLsbD 0 = decide (b.toNat % 2 = 1) :=
  Nat.testBit_zero b.toNat

theorem shiftStep_eq (k : ShiftKind) (m : Byte) (f : Flags) :
    shiftStep k m f = (k.result m f.c, k.flags m f) := by
  cases k with
  | asl =>
    simp only [shiftStep, aslStep, shiftLeft_one_eq_ofNat, byte_getLsbD_seven, Flags.setZN_eq_zn]; rfl
  | lsr =>
    simp only [shiftStep, lsrStep, shiftRight_one_eq_ofNat, byte_getLsbD_zero, Flags.setZN_eq_zn]; rfl
  | rol =>
    simp only [shiftStep, rolStep, rotateLeft_eq_ofNat, byte_getLsbD_seven, Flags.setZN_eq_zn]; rfl
  | ror =>
    simp only [shiftStep, rorStep, rotateRight_eq_ofNat, byte_getLsbD_zero, Flags.setZN_eq_zn]; rfl

/-- Settles O21: each kind in each form is a read-modify-write (`modifyInstr_acc_done`,
`modifyInstr_mem_done`) whose step is the statement's arithmetic (`shiftStep_eq`). -/
theorem shiftRotateResults : Obligations.ShiftRotateResults := by
  refine ⟨fun k s => ?acc, fun k f mode s t u b hmode hread hwrite => ?mem, fun b w => rfl⟩
  case acc =>
    rw [exec_shift]
    exact modifyInstr_acc_done (shift_timing k .acc s) (shiftStep_eq k s.a s.p)
  case mem =>
    rw [exec_shift]
    exact modifyInstr_mem_done (shift_timing k f s) hmode hread (shiftStep_eq k b s.p) hwrite

end Sys2Proof.Machine

/-! PROOFS for O22, O23 and O25: jumps, subroutines and branches (44_control_flow.md R200 to R211). -/

namespace Sys2Proof.Machine

open Spec (branchTable charged cell pushed16)

/-! ### Costs and words of the statements as the model writes them -/

/-- The model charges a transfer of control as the statements do, where the cost is the table's. -/
theorem Timing.charge_eq_charged {i : Instr} {s : State} {len n : Nat} (h : Timing i s len n)
    (extra : Nat) (u : State) : charge (n + extra) u = charged i s extra u := by
  obtain ⟨-, rfl⟩ := h
  rfl

theorem word_eq_ofNat (h l : Byte) : word h l = BitVec.ofNat 16 (h.toNat * 256 + l.toNat) := by
  rw [Nat.mul_comm, ← word_toNat, BitVec.ofNat_toNat, BitVec.setWidth_eq]

theorem hi8_toNat (w : Word) : (hi8 w).toNat = w.toNat / 256 := by
  have hw := w.isLt
  rw [hi8_eq_high, Spec.high, BitVec.toNat_ofNat]
  omega

theorem lo8_toNat (w : Word) : (lo8 w).toNat = w.toNat % 256 := by
  rw [lo8_eq_low, Spec.low, BitVec.toNat_ofNat, Nat.mod_mod]

/-! ### Jumps -/

/-- The high byte of a pointer's word stands at the next address of the same page (R135). -/
theorem pointerHigh_eq_ofNat (ptr : Word) :
    word (hi8 ptr) (lo8 ptr + 1#8) =
      BitVec.ofNat 16 (ptr.toNat / 256 * 256 + (ptr.toNat % 256 + 1) % 256) := by
  rw [word_eq_ofNat, hi8_toNat, byte_succ_toNat, lo8_toNat]

theorem readPointer_ok {ptr : Word} {s t u : State} {l h : Byte} (hlow : memRead ptr s = .ok (l, t))
    (hhigh : memRead (word (hi8 ptr) (lo8 ptr + 1#8)) t = .ok (h, u)) :
    readPointer ptr s = .ok (word h l, u) := by
  simp only [readPointer, hlow, hhigh]

theorem exec_jmp_ind {ptr w : Word} {s u : State} (h : readPointer ptr s = .ok (w, u)) :
    exec (.jmp (.ind ptr)) s = .next (charge 5 (u.setPc w)) := by
  simp only [exec, execJmp, h]

/-- Settles O22: the absolute form is its definition; the indirect one reads its pointer
(`readPointer_ok`) at the addresses that `pointerHigh_eq_ofNat` gives as sums. -/
theorem jmpResults : Obligations.JmpResults := by
  refine ⟨fun w s => rfl, fun w s t u l h hlow hhigh => ?ind, fun w => rfl⟩
  case ind =>
    have htiming : Timing (.jmp (.ind w)) s 3 5 := ⟨rfl, rfl⟩
    rw [← pointerHigh_eq_ofNat] at hhigh
    rw [exec_jmp_ind (readPointer_ok hlow hhigh), htiming.charge_eq_charged 0, word_eq_ofNat]
    rfl

/-! ### Subroutines -/

/-- A pushed word fills the two cells at `S` and below, high byte first (R133). -/
theorem push16_eq_pushed16 (w : Word) (s : State) :
    push16 w s = { s with ram := pushed16 s.ram s.sp w, sp := s.sp - 2#8 } := by
  have hsp : s.sp - 1#8 - 1#8 = s.sp - 2#8 := by bv_omega
  rw [push16_eq, push8_eq, push8_eq, ← hsp]
  rfl

/-- A pulled word comes from the two cells above `S`, low byte first (R134). -/
theorem pull16_eq (s : State) :
    pull16 s = (word (s.ram.read (cell (s.sp + 2#8))) (s.ram.read (cell (s.sp + 1#8))),
      { s with sp := s.sp + 2#8 }) := by
  have hsp : s.sp + 1#8 + 1#8 = s.sp + 2#8 := by bv_omega
  simp only [pull16, pull8_eq, hsp]
  rfl

theorem word_succ_eq_ofNat (h l : Byte) :
    word h l + 1#16 = BitVec.ofNat 16 ((h.toNat * 256 + l.toNat + 1) % 65536) := by
  rw [word_eq_ofNat, ← BitVec.ofNat_add]
  exact BitVec.eq_of_toNat_eq (by simp)

/-- Settles O23: JSR pushes its word by `push16_eq_pushed16`, RTS pulls it by `pull16_eq`; both cost the
table's 6 cycles. -/
theorem subroutineResults : Obligations.SubroutineResults := by
  refine ⟨fun w s => ?jsr, fun s => ?rts, fun w => rfl⟩
  case jsr =>
    have htiming : Timing (.jsr w) s 3 6 := ⟨rfl, rfl⟩
    rw [← htiming.charge_eq_charged 0, exec, execJsr, push16_eq_pushed16]
    rfl
  case rts =>
    have htiming : Timing .rts s 1 6 := ⟨rfl, rfl⟩
    dsimp only
    rw [← htiming.charge_eq_charged 0, ← word_succ_eq_ofNat, exec, execRts, pull16_eq]
    rfl

/-! ### Branches -/

/-- Sign extension keeps the signed value (R9). -/
theorem sext16_eq_ofInt (b : Byte) : sext16 b = BitVec.ofInt 16 b.toInt := by
  have hb := b.isLt
  have hz := zext16_toNat b
  rw [sext16, byte_getLsbD_seven, BitVec.toInt_eq_toNat_cond]
  simp only [decide_eq_true_eq]
  split
  case isTrue hneg =>
    rw [if_neg (by omega)]
    apply BitVec.eq_of_toNat_eq
    rw [BitVec.toNat_add, hz, BitVec.toNat_ofInt, BitVec.toNat_ofNat]
    omega
  case isFalse hpos =>
    rw [if_pos (by omega), BitVec.ofInt_natCast, zext16_eq_ofNat]

/-- The target of a branch as a sum of integers (R132). -/
theorem branchTarget_eq_ofInt (pc : Word) (off : Byte) :
    branchTarget pc off = BitVec.ofInt 16 (((pc + 2#16).toNat : Int) + off.toInt) := by
  rw [branchTarget, sext16_eq_ofInt, BitVec.ofInt_add, BitVec.ofInt_natCast, BitVec.ofNat_toNat,
    BitVec.setWidth_eq]

theorem hi8_ne_hi8_iff (v w : Word) : hi8 v ≠ hi8 w ↔ v.toNat / 256 ≠ w.toNat / 256 := by
  rw [ne_eq, ← BitVec.toNat_inj, hi8_toNat, hi8_toNat]

/-- The extra cycles of a taken branch, with the pages as quotients (R203). -/
theorem branchExtra_eq (pc : Word) (off : Byte) :
    branchExtra pc off =
      1 + if (branchTarget pc off).toNat / 256 ≠ (pc + 2#16).toNat / 256 then 1 else 0 := by
  simp only [branchExtra, hi8_ne_hi8_iff, Bool.toNat, Bool.cond_decide]

/-- What every branch does (R203), with its cost charged as the statements charge it. -/
theorem branchInstr_next {i : Instr} {s : State} (hi : Timing i s 2 2) (cond : Bool) (off : Byte) :
    branchInstr cond off s = .next (charged i s (if cond then branchExtra s.pc off else 0)
      { s with pc := if cond then branchTarget s.pc off else s.pc + 2#16 }) := by
  rw [← hi.charge_eq_charged]
  cases cond <;> rfl

/-- Each row of the table is `branchInstr` on the row's condition, of two bytes and two cycles. -/
theorem branchTable_branchInstr (off : Byte) (s : State) :
    ∀ c ∈ branchTable off s, exec c.1 s = branchInstr c.2 off s ∧ Timing c.1 s 2 2 := by
  simp only [branchTable, List.forall_mem_cons, List.not_mem_nil, false_implies, implies_true, and_true]
  refine ⟨?_, ?_, ?_, ?_, ?_, ?_, ?_, ?_⟩ <;> exact ⟨rfl, rfl, rfl⟩

/-- Settles O25: every row of the table is the one branch (`branchTable_branchInstr`), whose target and
extra cycles are the statement's arithmetic. -/
theorem branchResults : Obligations.BranchResults := by
  refine ⟨fun off s => ?_, fun off s => rfl⟩
  dsimp only
  rw [← branchTarget_eq_ofInt, ← branchExtra_eq]
  intro c hc
  obtain ⟨hexec, htiming⟩ := branchTable_branchInstr off s c hc
  rw [hexec, branchInstr_next htiming]

end Sys2Proof.Machine

/-! PROOFS for O26, O28, O29 and O30: stack, flag and system instructions (45_stack_flags_system.md R220
to R233, R240). -/

namespace Sys2Proof.Machine

open Spec (cell done image pushed16 unimage)

/-! ### The status image (R27) as arithmetic -/

/-- The bits that `PackP` puts together stand apart, so their sum is the byte. -/
theorem Flags.pack_eq_image (f : Flags) (brk : Bool) : f.pack brk = image f brk := by
  obtain ⟨c, z, i, d, v, n⟩ := f
  revert c z i d v n brk
  decide

theorem Flags.unpack_eq_unimage (b : Byte) : Flags.unpack b = unimage b := by
  simp only [Flags.unpack, unimage, BitVec.getLsbD, Nat.testBit_eq_decide_div_mod_eq, Nat.reducePow,
    Nat.div_one]

/-! ### Pushes and pulls -/

/-- Settles O26: each is a push or a pull (`push8_eq`, `pull8_eq`) ended with the table's timing; the
status byte is the statement's arithmetic in both directions. -/
theorem stackResults : Obligations.StackResults := by
  refine fun s => ⟨?pha, ?php, ⟨?pla, ?plp⟩, rfl⟩
  case pha =>
    have htiming : Timing .pha s 1 3 := ⟨rfl, rfl⟩
    rw [exec, execPha, htiming.finish_eq_done, push8_eq]
    rfl
  case php =>
    have htiming : Timing .php s 1 3 := ⟨rfl, rfl⟩
    rw [exec, execPhp, htiming.finish_eq_done, push8_eq, Flags.pack_eq_image]
    rfl
  case pla =>
    have htiming : Timing .pla s 1 4 := ⟨rfl, rfl⟩
    rw [exec, execPla, htiming.finish_eq_done, loadA_eq, pull8_eq]
    rfl
  case plp =>
    have htiming : Timing .plp s 1 4 := ⟨rfl, rfl⟩
    rw [exec, execPlp, htiming.finish_eq_done, Flags.unpack_eq_unimage, pull8_eq]
    rfl

/-! ### Flag instructions -/

/-- Settles O28: the seven are register-only instructions, each with its write of one flag. -/
theorem flagInstructionResults : Obligations.FlagInstructionResults := fun _ =>
  ⟨registerInstr_done ⟨rfl, rfl⟩ fun t => t.setP { t.p with c := false },
    registerInstr_done ⟨rfl, rfl⟩ fun t => t.setP { t.p with c := true },
    registerInstr_done ⟨rfl, rfl⟩ fun t => t.setP { t.p with i := false },
    registerInstr_done ⟨rfl, rfl⟩ fun t => t.setP { t.p with i := true },
    registerInstr_done ⟨rfl, rfl⟩ fun t => t.setP { t.p with v := false },
    registerInstr_done ⟨rfl, rfl⟩ fun t => t.setP { t.p with d := false },
    registerInstr_done ⟨rfl, rfl⟩ fun t => t.setP { t.p with d := true }, rfl, rfl⟩

/-! ### NOP and the undefined opcodes -/

theorem exec_nop (s : State) : exec .nop s = .next (finish 1 2 s) := rfl

theorem exec_und (op : Byte) (s : State) :
    exec (.und op) s = .next (finish s.params.undefLen s.params.undefCycles s) := rfl

/-- Settles O29: both kinds are the default end of an instruction (`exec_nop`, `exec_und`); the default
parameters are NOP's length and cost. -/
theorem nopAndUndefinedResults : Obligations.NopAndUndefinedResults := by
  refine ⟨fun s => ⟨?nop, rfl, rfl⟩, fun op s => ?und, fun op s hparams => ?default⟩
  case nop => exact registerInstr_done ⟨rfl, rfl⟩ fun t => t
  case und => rw [exec_und, finish_eq]
  case default =>
    rw [exec_und, exec_nop, hparams]
    rfl

/-! ### Interrupt entry and return -/

/-- A vector is read low byte first, and the read changes the cartridge only (R65). -/
theorem readVector_eq (vec : Word) (s : State) :
    readVector vec s =
      let lo := s.cart.cpuRead s.params.openBus vec
      let hi := lo.2.cpuRead s.params.openBus (vec + 1#16)
      (BitVec.ofNat 16 (hi.1.toNat * 256 + lo.1.toNat), { s with cart := hi.2 }) := by
  dsimp only
  rw [← word_eq_ofNat]
  rfl

/-- The entry of any kind (R256): the return address and the status image at the three cells from `S`
down, `P.I` set, and the vector of the kind read. -/
theorem interrupt_eq (k : InterruptKind) (s : State) :
    interrupt k s =
      { s with
        ram := (pushed16 s.ram s.sp (k.returnAddress s.pc)).write (cell (s.sp - 2#8)) (image s.p k.marker)
        sp := s.sp - 3#8
        p := { s.p with i := true }
        pc := (readVector k.vector s).1
        cart := (readVector k.vector s).2.cart } := by
  have hsp : s.sp - 2#8 - 1#8 = s.sp - 3#8 := by bv_omega
  rw [interrupt, push16_eq_pushed16, push8_eq, Flags.pack_eq_image, ← hsp]
  rfl

/-- The return (R233): the status image and then the word, from the three cells above `S`. -/
theorem returnFromInterrupt_eq (s : State) :
    returnFromInterrupt s =
      { s with
        p := unimage (s.ram.read (cell (s.sp + 1#8)))
        pc := BitVec.ofNat 16 ((s.ram.read (cell (s.sp + 3#8))).toNat * 256 +
          (s.ram.read (cell (s.sp + 2#8))).toNat)
        sp := s.sp + 3#8 } := by
  have hlow : s.sp + 1#8 + 1#8 = s.sp + 2#8 := by bv_omega
  have hhigh : s.sp + 1#8 + 2#8 = s.sp + 3#8 := by bv_omega
  rw [returnFromInterrupt, pull8_eq, pull16_eq, Flags.unpack_eq_unimage, ← word_eq_ofNat, ← hlow, ← hhigh]
  rfl

/-- Settles O30: BRK is the entry of its kind (`interrupt_eq`) and RTI the return
(`returnFromInterrupt_eq`), each charged the table's cost. -/
theorem brkRtiResults : Obligations.BrkRtiResults := by
  refine ⟨fun s => ?brk, fun s => ?rti, rfl⟩
  case brk =>
    have htiming : Timing .brk s 1 7 := ⟨rfl, rfl⟩
    rw [exec, execBrk, interrupt_eq, readVector_eq, htiming.charge_eq_charged 0]
    rfl
  case rti =>
    have htiming : Timing .rti s 1 6 := ⟨rfl, rfl⟩
    rw [exec, execRti, returnFromInterrupt_eq, htiming.charge_eq_charged 0]

end Sys2Proof.Machine

/-! PROOFS for O44, O45 and O46: the PPU's ports but for OAM (60_exceptions.md R270 to R278). -/

namespace Sys2Proof.Machine

/-! ### $2002 -/

theorem statusFlags_toNat (vblank spr0 sprovf : Bool) :
    (bitByte vblank <<< 7 ||| bitByte spr0 <<< 6 ||| bitByte sprovf <<< 5).toNat =
      2 ^ 5 * (4 * vblank.toNat + 2 * spr0.toNat + sprovf.toNat) := by
  revert vblank spr0 sprovf
  decide

/-- The flags stand in bits 7 to 5 and `OPEN_BUS` below them, so the status byte is their sum. -/
theorem Ppu.status_toNat (p : Ppu) (openBus : Byte) :
    (p.status openBus).toNat = 128 * p.vblank.toNat + 64 * p.spr0.toNat + 32 * p.sprovf.toNat +
      openBus.toNat % 32 := by
  have hlow : (openBus &&& 0x1F#8).toNat = openBus.toNat % 2 ^ 5 := by
    rw [BitVec.toNat_and]
    exact Nat.and_two_pow_sub_one_eq_mod _ 5
  have hlt : openBus.toNat % 2 ^ 5 < 2 ^ 5 := Nat.mod_lt _ (by decide)
  rw [Ppu.status, BitVec.toNat_or, statusFlags_toNat, hlow, ← Nat.two_pow_add_eq_or_of_lt hlt]
  omega

/-- Settles O44: the accesses are their definitions, and `Ppu.status_toNat` gives the byte. -/
theorem ppuStatusRead : Obligations.PpuStatusRead :=
  fun _ s => ⟨rfl, s.ppu.status s.params.openBus, rfl, s.ppu.status_toNat s.params.openBus⟩

/-! ### $2000, $2005 and $2006: the two halves of a write pair, and the bits of `ppu.t` -/

theorem Ppu.writeCtrl_t_bits (p : Ppu) (v : Byte) : ∀ k < 15, (p.writeCtrl v).t.getLsbD k =
    if k = 10 then v.getLsbD 0 else if k = 11 then v.getLsbD 1 else p.t.getLsbD k := by
  intro k hk
  interval_cases k <;> simp [Ppu.writeCtrl]

theorem Ppu.writeScroll_first {p : Ppu} (h : p.w = false) (v : Byte) :
    p.writeScroll v = { p with t := (p.writeScroll v).t, x := v.setWidth 3, w := true } := by
  simp [Ppu.writeScroll, h]

theorem Ppu.writeScroll_first_t_bits {p : Ppu} (h : p.w = false) (v : Byte) :
    ∀ k < 15, (p.writeScroll v).t.getLsbD k =
      if k < 5 then v.getLsbD (k + 3) else p.t.getLsbD k := by
  intro k hk
  interval_cases k <;> simp [Ppu.writeScroll, h]

theorem Ppu.writeScroll_second {p : Ppu} (h : p.w = true) (v : Byte) :
    p.writeScroll v = { p with t := (p.writeScroll v).t, w := false } := by
  simp [Ppu.writeScroll, h]

theorem Ppu.writeScroll_second_t_bits {p : Ppu} (h : p.w = true) (v : Byte) :
    ∀ k < 15, (p.writeScroll v).t.getLsbD k =
      if 12 ≤ k then v.getLsbD (k - 12)
      else if 5 ≤ k ∧ k < 10 then v.getLsbD (k - 2) else p.t.getLsbD k := by
  intro k hk
  interval_cases k <;> simp [Ppu.writeScroll, h]

theorem Ppu.writeAddr_first {p : Ppu} (h : p.w = false) (v : Byte) :
    p.writeAddr v = { p with t := (p.writeAddr v).t, w := true } := by
  simp [Ppu.writeAddr, h]

theorem Ppu.writeAddr_first_t_bits {p : Ppu} (h : p.w = false) (v : Byte) :
    ∀ k < 15, (p.writeAddr v).t.getLsbD k =
      if k = 14 then false else if 8 ≤ k then v.getLsbD (k - 8) else p.t.getLsbD k := by
  intro k hk
  interval_cases k <;> simp [Ppu.writeAddr, h]

theorem Ppu.writeAddr_second {p : Ppu} (h : p.w = true) (v : Byte) :
    p.writeAddr v = { p with t := (p.writeAddr v).t, v := (p.writeAddr v).t, w := false } := by
  simp [Ppu.writeAddr, h]

theorem Ppu.writeAddr_second_t_bits {p : Ppu} (h : p.w = true) (v : Byte) :
    ∀ k < 15, (p.writeAddr v).t.getLsbD k =
      if k < 8 then v.getLsbD k else p.t.getLsbD k := by
  intro k hk
  interval_cases k <;> simp [Ppu.writeAddr, h]

/-- Settles O45: each write is one of the PPU record, whose two halves by the toggle, and whose bits of
`ppu.t`, the lemmas above give. -/
theorem ppuPortWrites : Obligations.PpuPortWrites := by
  intro v s
  have put {p q : Ppu} (h : p = q) : (Except.ok (s.setPpu p) : Except Refusal State) = .ok (s.setPpu q) :=
    congrArg _ (congrArg _ h)
  exact ⟨⟨_, rfl, s.ppu.writeCtrl_t_bits v⟩, rfl, rfl,
    fun hw => ⟨_, _, put (Ppu.writeScroll_first hw v), BitVec.toNat_setWidth 3 v,
      Ppu.writeScroll_first_t_bits hw v⟩,
    fun hw => ⟨_, put (Ppu.writeScroll_second hw v), Ppu.writeScroll_second_t_bits hw v⟩,
    fun hw => ⟨_, put (Ppu.writeAddr_first hw v), Ppu.writeAddr_first_t_bits hw v⟩,
    fun hw => ⟨_, put (Ppu.writeAddr_second hw v), Ppu.writeAddr_second_t_bits hw v⟩⟩

/-! ### $2007 -/

theorem Ppu.dataAddr_eq_ofNat (p : Ppu) : p.dataAddr = BitVec.ofNat 14 (p.v.toNat % 16384) := by
  apply BitVec.eq_of_toNat_eq
  rw [Ppu.dataAddr, BitVec.toNat_setWidth, BitVec.toNat_ofNat, Nat.mod_mod]

theorem Ppu.nextV_eq_ofNat (p : Ppu) :
    p.nextV = BitVec.ofNat 15 ((p.v.toNat + if p.ctrl.getLsbD 2 then 32 else 1) % 32768) := by
  apply BitVec.eq_of_toNat_eq
  rw [Ppu.nextV, BitVec.toNat_add, BitVec.toNat_ofNat, Nat.mod_mod]
  cases p.ctrl.getLsbD 2 <;> rfl

/-- In the palette the mask $2FFF clears bit 12, which is set: it subtracts $1000. -/
theorem belowPalette_eq_ofNat {a : BitVec 14} (h : 0x3F00 ≤ a.toNat) :
    a &&& 0x2FFF#14 = BitVec.ofNat 14 (a.toNat - 0x1000) := by
  have hlt := a.isLt
  have hand : (a &&& 0x2FFF#14).toNat = a.toNat &&& 0x2FFF := BitVec.toNat_and ..
  have hhigh : (a.toNat &&& 0x2FFF) / 2 ^ 12 = 2 := by
    rw [Nat.and_div_two_pow, show a.toNat / 2 ^ 12 = 3 by omega]
    rfl
  have hlow : (a.toNat &&& 0x2FFF) % 2 ^ 12 = a.toNat % 2 ^ 12 := by
    rw [Nat.and_mod_two_pow]
    exact (Nat.and_two_pow_sub_one_eq_mod _ 12).trans (Nat.mod_mod _ _)
  apply BitVec.eq_of_toNat_eq
  rw [hand, BitVec.toNat_ofNat]
  omega

theorem Ppu.readData_below {p : Ppu} (c : Cart) (h : p.dataAddr.toNat < 0x3F00) :
    p.readData c = (p.rdbuf, { p with rdbuf := ppuRead p c p.dataAddr, v := p.nextV }) := by
  rw [Ppu.readData, if_pos h]

theorem Ppu.readData_palette {p : Ppu} (c : Cart) (h : 0x3F00 ≤ p.dataAddr.toNat) :
    p.readData c = (ppuRead p c p.dataAddr,
      { p with rdbuf := ppuRead p c (BitVec.ofNat 14 (p.dataAddr.toNat - 0x1000)), v := p.nextV }) := by
  rw [Ppu.readData, if_neg (by omega), belowPalette_eq_ofNat h]

theorem memRead_data {s : State} (h : s.ppu.rendering = false) :
    memRead 0x2007#16 s = .ok ((s.ppu.readData s.cart).1, s.setPpu (s.ppu.readData s.cart).2) :=
  if_neg (Bool.eq_false_iff.mp h)

theorem memWrite_data (v : Byte) {s : State} (h : s.ppu.rendering = false) :
    memWrite 0x2007#16 v s =
      .ok ((s.setPpu (s.ppu.writeData s.cart v).1).setCart (s.ppu.writeData s.cart v).2) :=
  if_neg (Bool.eq_false_iff.mp h)

/-- Settles O46: the address and the increment are the statement's arithmetic, and each side of the
palette's border has its equation; while rendering both accesses take their refusing branch. -/
theorem ppuDataPort : Obligations.PpuDataPort := by
  intro v s
  dsimp only
  rw [← Ppu.dataAddr_eq_ofNat, ← Ppu.nextV_eq_ofNat]
  refine ⟨fun hr ha => ?below, fun hr ha => ?palette, fun hr => memWrite_data v hr,
    fun hr => ⟨if_pos hr, if_pos hr⟩⟩
  case below =>
    rw [memRead_data hr, Ppu.readData_below _ ha]
    rfl
  case palette =>
    rw [memRead_data hr, Ppu.readData_palette _ ha]
    rfl

end Sys2Proof.Machine

/-! PROOFS for O48: OAM, its port and its DMA (60_exceptions.md R275, R296). -/

namespace Sys2Proof.Machine

open Spec (dmaLoop)

/-! ### The DMA is the loop of R296 -/

theorem dmaAddr_eq (page : Byte) {k : Nat} (hk : k < 256) :
    word page (BitVec.ofNat 8 k) = BitVec.ofNat 16 (page.toNat * 256 + k) := by
  rw [word_eq_ofNat, BitVec.toNat_ofNat, Nat.mod_eq_of_lt (by omega)]

theorem oamCell_toNat (oamaddr : Byte) (k : Nat) :
    (oamaddr + BitVec.ofNat 8 k).toNat = (oamaddr.toNat + k) % 256 := by
  rw [BitVec.toNat_add, BitVec.toNat_ofNat, Nat.add_mod_mod]

/-- The body of the statement's loop: byte `i` of `page` to OAM. -/
def dmaLoopBody (page : Byte) : State → Nat → Except Refusal State := fun u i => do
  let (b, u') ← memRead (BitVec.ofNat 16 (page.toNat * 256 + i)) u
  pure { u' with ppu := { u'.ppu with
    oam := u'.ppu.oam.write ((u'.ppu.oamaddr.toNat + i) % 256) b } }

theorem dmaByte_eq_loopBody (page : Byte) (s : State) {k : Nat} (hk : k < 256) :
    dmaByte page (BitVec.ofNat 8 k) s = dmaLoopBody page s k := by
  simp only [dmaByte, dmaAddr_eq page hk, oamCell_toNat, dmaLoopBody]
  cases memRead (BitVec.ofNat 16 (page.toNat * 256 + k)) s <;> rfl

theorem dmaCopy_eq_foldlM (page : Byte) (s : State) {k : Nat} (hk : k ≤ 256) :
    dmaCopy page k s = (List.range k).foldlM (dmaLoopBody page) s := by
  induction k with
  | zero => rfl
  | succ k ih =>
    rw [List.range_succ, List.foldlM_append, ← ih (by omega), dmaCopy]
    cases dmaCopy page k s with
    | error r => rfl
    | ok u =>
      simp only [dmaByte_eq_loopBody page u (show k < 256 by omega)]
      exact (bind_pure _).symm

theorem oamDma_ok {page : Byte} {s t : State} (h : dmaCopy page 256 s = .ok t) :
    oamDma page s = .ok (t.setDmaExtra (513 + t.cyc % 2)) := by
  unfold oamDma
  rw [h]

theorem oamDma_eq_dmaLoop (page : Byte) (s : State) : oamDma page s = dmaLoop page s := by
  have hfold := dmaCopy_eq_foldlM page s (Nat.le_refl 256)
  unfold dmaLoopBody at hfold
  unfold dmaLoop oamDma
  rw [← hfold]
  generalize dmaCopy page 256 s = r
  cases r <;> rfl

/-! ### A page of plain addresses -/

/-- What a plain address answers does not depend on the PPU (R72). -/
theorem memRead_setPpu_plain {a : Word} {s : State} (hn : s.Nrom) (ha : plainAddr a) {b : Byte}
    (h : memRead a s = .ok (b, s)) (q : Ppu) : memRead a (s.setPpu q) = .ok (b, s.setPpu q) := by
  rcases ha with ha | ha
  · rw [memRead_ram ha] at h ⊢
    cases h
    rfl
  · rw [memRead_cart_nrom hn ha] at h
    rw [memRead_cart_nrom (s := s.setPpu q) hn ha]
    cases h
    rfl

theorem plainAddr_page {page : Byte} (h : page.toNat < 0x20 ∨ 0x41 ≤ page.toNat) {k : Nat}
    (hk : k < 256) : plainAddr (BitVec.ofNat 16 (page.toNat * 256 + k)) := by
  have hpage := page.isLt
  rw [plainAddr, BitVec.toNat_ofNat]
  omega

/-- `oam` holds the first `k` bytes of `page`, as `s` shows them, from `ppu.oamaddr` on, wrapping. -/
structure DmaCopied (s : State) (page : Byte) (k : Nat) (oam : Memory) : Prop where
  wf : Memory.wf 256 oam = true
  copied : ∀ i < k, some (oam.read ((s.ppu.oamaddr.toNat + i) % 256)) =
    peek s (BitVec.ofNat 16 (page.toNat * 256 + i))

/-- The next byte goes to a cell that none of the bytes before it went to. -/
theorem DmaCopied.write {s : State} {page : Byte} {k : Nat} {oam : Memory}
    (h : DmaCopied s page k oam) (hk : k < 256) {b : Byte}
    (hb : peek s (BitVec.ofNat 16 (page.toNat * 256 + k)) = some b) :
    DmaCopied s page (k + 1) (oam.write ((s.ppu.oamaddr.toNat + k) % 256) b) where
  wf := Memory.wf_write h.wf (Nat.mod_lt _ (by decide)) b
  copied i hi := by
    by_cases hik : i = k
    · rw [hik, Memory.read_write_same h.wf, hb]
    · rw [Memory.read_write_other _ _ (by omega), h.copied i (by omega)]

/-- On a page of plain addresses the DMA changes OAM alone: no read of it has a side effect. -/
theorem dmaCopy_plain {s : State} {page : Byte} (hn : s.Nrom) (hwf : Memory.wf 256 s.ppu.oam = true)
    (hpage : page.toNat < 0x20 ∨ 0x41 ≤ page.toNat) {k : Nat} (hk : k ≤ 256) :
    ∃ oam, dmaCopy page k s = .ok (s.setPpu { s.ppu with oam := oam }) ∧ DmaCopied s page k oam := by
  induction k with
  | zero => exact ⟨s.ppu.oam, rfl, hwf, fun i hi => absurd hi (Nat.not_lt_zero i)⟩
  | succ k ih =>
    obtain ⟨oam, hcopy, hoam⟩ := ih (by omega)
    have ha := plainAddr_page hpage (show k < 256 by omega)
    obtain ⟨b, hread, hpeek⟩ := memRead_plain hn ha
    refine ⟨_, ?_, hoam.write (by omega) hpeek⟩
    have hread' := memRead_setPpu_plain hn ha hread { s.ppu with oam := oam }
    simp only [dmaCopy, hcopy, dmaByte, dmaAddr_eq page (show k < 256 by omega), hread', oamCell_toNat]
    rfl

/-- Settles O48: the port is its definition, the DMA the loop by `oamDma_eq_dmaLoop`; `dmaCopy_plain` is the
copy of a page, and `oamDma_stall` the stall that STA is charged. -/
theorem oamPortAndDma : Obligations.OamPortAndDma := by
  refine ⟨fun v s => ⟨?port, rfl, ?loop⟩, fun v s hn hwf hpage => ?copy, fun s t ht => ?stall⟩
  case port =>
    rw [← byte_succ_eq_ofNat]
    rfl
  case loop => rw [memWrite_dma, oamDma_eq_dmaLoop]
  case copy =>
    obtain ⟨oam, hcopy, hoam⟩ := dmaCopy_plain hn hwf hpage (Nat.le_refl 256)
    exact ⟨oam, (memWrite_dma v s).trans (oamDma_ok hcopy), hoam.copied⟩
  case stall =>
    have hpc : t.pc = s.pc := by rw [memWrite_same ht]
    obtain ⟨hextra, haddr⟩ := oamDma_stall (memWrite_dma s.a s ▸ ht)
    refine ⟨haddr, ?_⟩
    rw [exec, execSta, staMode, storeInstr_next (m := .abs 0x4014#16) ht, finish_eq, hpc, hextra]
    rfl

end Sys2Proof.Machine

/-! PROOFS for O49: the controller ports (60_exceptions.md R297 to R299). -/

namespace Sys2Proof.Machine

open Spec (reads4016 reads4017)

/-! ### One shift register -/

/-- A read without the strobe moves every bit one place down and puts a 1 on top (R298). -/
theorem shiftAfterRead_bit (pad b : Byte) {k : Nat} (hk : k < 8) :
    (shiftAfterRead false pad b).getLsbD k = (decide (k = 7) || b.getLsbD (k + 1)) := by
  interval_cases k <;> simp [shiftAfterRead]

/-- After `n` reads place `k` holds what was bit `n + k`, and ones from there on. -/
theorem shiftAfterReads_bit (pad b : Byte) (n : Nat) {k : Nat} (hk : k < 8) :
    ((shiftAfterRead false pad)^[n] b).getLsbD k = (decide (8 ≤ n + k) || b.getLsbD (n + k)) := by
  induction n generalizing k with
  | zero => simp [hk]
  | succ n ih =>
    rw [Function.iterate_succ_apply', shiftAfterRead_bit pad _ hk]
    by_cases htop : k = 7
    · simp [htop]
    · rw [ih (by omega), show n + 1 + k = n + (k + 1) by omega]
      simp [htop]

theorem byte_and_one (b : Byte) : b &&& 0x01#8 = if b.getLsbD 0 then 1#8 else 0#8 := by
  rw [BitVec.and_one_eq_setWidth_ofBool_getLsbD]
  cases b.getLsbD 0 <;> rfl

theorem shiftBit_strobe (pad b : Byte) :
    shiftBit true pad b = if pad.getLsbD 0 then 1#8 else 0#8 :=
  byte_and_one pad

theorem shiftBit_afterReads (pad b : Byte) (n : Nat) :
    shiftBit false pad ((shiftAfterRead false pad)^[n] b) =
      if 8 ≤ n ∨ b.getLsbD n = true then 1#8 else 0#8 := by
  rw [shiftBit, if_neg Bool.false_ne_true, byte_and_one, shiftAfterReads_bit pad b n (by decide)]
  simp

/-! ### The ports -/

/-- The ports under the strobe: both shift registers hold the buttons (R297). -/
def Pads.strobed (k : Pads) : Pads := { k with strobe := true, shift0 := k.pad0, shift1 := k.pad1 }

theorem Pads.writeStrobe_set (k : Pads) {v : Byte} (h : v.getLsbD 0 = true) :
    k.writeStrobe v = k.strobed := if_pos h

/-- The ports after the strobe: the shift registers keep the buttons, and reads shift them. -/
def Pads.latched (k : Pads) : Pads := { k with strobe := false, shift0 := k.pad0, shift1 := k.pad1 }

theorem Pads.writeStrobe_clear (k : Pads) {v : Byte} (h : v.getLsbD 0 = false) :
    k.strobed.writeStrobe v = k.latched := if_neg (Bool.eq_false_iff.mp h)

theorem memWrite_strobe (v : Byte) (s : State) :
    memWrite 0x4016#16 v s = .ok (s.setPads (s.pads.writeStrobe v)) := rfl

/-- Reads of $4016 act on the shift register of port 0 alone. -/
theorem reads4016_eq (n : Nat) (s : State) :
    reads4016 n s = s.setPads { s.pads with
      shift0 := (shiftAfterRead s.pads.strobe s.pads.pad0)^[n] s.pads.shift0 } :=
  (Function.Semiconj.iterate_right (f := fun b => s.setPads { s.pads with shift0 := b })
    (fun _ => rfl) n s.pads.shift0).symm

/-- Reads of $4017 act on the shift register of port 1 alone. -/
theorem reads4017_eq (n : Nat) (s : State) :
    reads4017 n s = s.setPads { s.pads with
      shift1 := (shiftAfterRead s.pads.strobe s.pads.pad1)^[n] s.pads.shift1 } :=
  (Function.Semiconj.iterate_right (f := fun b => s.setPads { s.pads with shift1 := b })
    (fun _ => rfl) n s.pads.shift1).symm

theorem memRead_reads4016 {n : Nat} {s : State} {b : Byte}
    (h : shiftBit s.pads.strobe s.pads.pad0
      ((shiftAfterRead s.pads.strobe s.pads.pad0)^[n] s.pads.shift0) = b) :
    memRead 0x4016#16 (reads4016 n s) = .ok (b, reads4016 (n + 1) s) := by
  rw [← h, reads4016_eq n, reads4016_eq (n + 1), Function.iterate_succ_apply']
  rfl

theorem memRead_reads4017 {n : Nat} {s : State} {b : Byte}
    (h : shiftBit s.pads.strobe s.pads.pad1
      ((shiftAfterRead s.pads.strobe s.pads.pad1)^[n] s.pads.shift1) = b) :
    memRead 0x4017#16 (reads4017 n s) = .ok (b, reads4017 (n + 1) s) := by
  rw [← h, reads4017_eq n, reads4017_eq (n + 1), Function.iterate_succ_apply']
  rfl

/-- Settles O49: the two writes load both shift registers with the buttons (`Pads.strobed`, `Pads.latched`);
from there on a read answers the bit that `shiftBit_strobe` and `shiftBit_afterReads` give, and moves one
shift register. -/
theorem controllerProtocol : Obligations.ControllerProtocol := by
  refine ⟨fun v1 v0 s h1 h0 => ?protocol, fun n s => ⟨?port0, ?port1⟩⟩
  case protocol =>
    have hset : memWrite 0x4016#16 v1 s = .ok (s.setPads s.pads.strobed) := by
      rw [memWrite_strobe, Pads.writeStrobe_set _ h1]
    have hclear : memWrite 0x4016#16 v0 (s.setPads s.pads.strobed) = .ok (s.setPads s.pads.latched) := by
      rw [memWrite_strobe, State.setPads_pads, Pads.writeStrobe_clear _ h0]
      rfl
    exact ⟨_, _, hset, hclear, fun n => memRead_reads4016 (shiftBit_strobe _ _),
      fun n => memRead_reads4016 (shiftBit_afterReads _ _ n),
      fun n => memRead_reads4017 (shiftBit_strobe _ _),
      fun n => memRead_reads4017 (shiftBit_afterReads _ _ n)⟩
  case port0 =>
    rw [reads4016_eq]
    rfl
  case port1 =>
    rw [reads4017_eq]
    rfl

end Sys2Proof.Machine

/-! PROOFS for O50: the APU's registers and its tick (60_exceptions.md R290 to R292). -/

namespace Sys2Proof.Machine

theorem Apu.writeFrameCounter_eq (u : Apu) (v : Byte) :
    u.writeFrameCounter v =
      { mode := decide (128 ≤ v.toNat), inhibit := decide (v.toNat / 64 % 2 = 1),
        frameIrq := u.frameIrq && !decide (v.toNat / 64 % 2 = 1), fc := 0 } := by
  have hbit : v.getLsbD 6 = decide (v.toNat / 64 % 2 = 1) := Nat.testBit_eq_decide_div_mod_eq
  rw [Apu.writeFrameCounter, byte_getLsbD_seven, hbit]
  cases decide (v.toNat / 64 % 2 = 1) <;> simp

theorem Apu.status_eq (u : Apu) : u.status = if u.frameIrq then 64#8 else 0#8 := by
  rw [Apu.status]
  cases u.frameIrq <;> rfl

theorem Apu.tick_fourStep {u : Apu} (h : u.mode = false) :
    u.tick = { u with
      frameIrq := u.frameIrq || (decide (u.fc + 1 = 29829) && !u.inhibit)
      fc := if u.fc + 1 = 29830 then 0 else u.fc + 1 } := by
  simp only [Apu.tick, h, Bool.false_eq_true, if_false]

theorem Apu.tick_fiveStep {u : Apu} (h : u.mode = true) :
    u.tick = { u with fc := if u.fc + 1 = 37282 then 0 else u.fc + 1 } := by
  simp only [Apu.tick, h, if_true]

/-- Settles O50: the register accesses by `Apu.writeFrameCounter_eq` and `Apu.status_eq`, the tick by its
equation in each mode. -/
theorem apuRegisters : Obligations.ApuRegisters := by
  intro v s
  rw [← Apu.writeFrameCounter_eq, ← Apu.status_eq]
  exact ⟨rfl, rfl, rfl, Apu.tick_fourStep, Apu.tick_fiveStep⟩

end Sys2Proof.Machine

/-! PROOFS for O54: vertical blank and the pre-render clear (60_exceptions.md R281 to R283). -/

namespace Sys2Proof.Machine

/-! ### What the parts of a dot leave unchanged -/

theorem renderEvent_same (s : State) :
    renderEvent s = { s with
      ppu := { s.ppu with
        v := (renderEvent s).ppu.v, oamaddr := (renderEvent s).ppu.oamaddr
        spr0 := (renderEvent s).ppu.spr0, sprovf := (renderEvent s).ppu.sprovf }
      frameBuf := (renderEvent s).frameBuf
      cart := (renderEvent s).cart } := by
  unfold renderEvent
  split
  · unfold renderDot
    generalize Config.render _ _ = r
    rw [applyRender_same, (notifyAtDot_same s).1]
  · rfl

theorem advanceDot_same (s : State) :
    advanceDot s = { s with
      ppu := { s.ppu with
        scanline := (advanceDot s).ppu.scanline, dot := (advanceDot s).ppu.dot
        odd := (advanceDot s).ppu.odd }
      frameComplete := (advanceDot s).frameComplete } := by
  unfold advanceDot
  split
  · split <;> rfl
  · rfl

/-- `Render` raises no sprite flag below the visible scanlines (R285 (b)). -/
theorem renderEvent_sprites {s : State} (h : 239 < s.ppu.scanline) :
    (renderEvent s).ppu.spr0 = s.ppu.spr0 ∧ (renderEvent s).ppu.sprovf = s.ppu.sprovf := by
  unfold renderEvent
  split
  · unfold renderDot
    generalize Config.render _ _ = r
    rw [(notifyAtDot_same s).1]
    simp [applyRender, h]
  · exact ⟨rfl, rfl⟩

/-! ### The events of a dot and its advance -/

/-- The events of a dot, which come before the advance of the counters (R281). -/
def tickEvents (s : State) : State := renderEvent (preRenderEvent (vblankEvent s))

theorem ppuTick_eq_advanceDot (s : State) : ppuTick s = advanceDot (tickEvents s) := rfl

/-- The events leave the position, so they all see the one the dot began with. -/
theorem tickEvents_position (s : State) :
    (tickEvents s).ppu.scanline = s.ppu.scanline ∧ (tickEvents s).ppu.dot = s.ppu.dot := by
  rw [tickEvents, renderEvent_same]
  unfold preRenderEvent vblankEvent
  split <;> split <;> exact ⟨rfl, rfl⟩

/-- At dot 1 of scanline 241 the events are the vertical-blank entry (R282). -/
theorem tickEvents_vblankEntry {s : State} (hline : s.ppu.scanline = 241) (hdot : s.ppu.dot = 1) :
    (tickEvents s).ppu.vblank = true ∧
      (tickEvents s).nmiPending = (s.nmiPending || s.ppu.ctrl.getLsbD 7) := by
  have hentry : vblankEvent s = vblankEntry s := if_pos ⟨hline, hdot⟩
  have hpre : preRenderEvent (vblankEntry s) = vblankEntry s :=
    if_neg fun h => by simp [vblankEntry, hline] at h
  rw [tickEvents, hentry, hpre, renderEvent_same]
  exact ⟨rfl, rfl⟩

/-- At every other position the latch stays. -/
theorem tickEvents_nmiPending {s : State} (h : ¬ (s.ppu.scanline = 241 ∧ s.ppu.dot = 1)) :
    (tickEvents s).nmiPending = s.nmiPending := by
  have hentry : vblankEvent s = s := if_neg h
  rw [tickEvents, hentry, renderEvent_same]
  unfold preRenderEvent
  split <;> rfl

/-- At dot 1 of scanline 261 the flags are cleared (R283), and rendering there raises none of them. -/
theorem tickEvents_preRenderClear {s : State} (hline : s.ppu.scanline = 261) (hdot : s.ppu.dot = 1) :
    (tickEvents s).ppu.vblank = false ∧ (tickEvents s).ppu.spr0 = false ∧
      (tickEvents s).ppu.sprovf = false := by
  have hentry : vblankEvent s = s := if_neg (by omega)
  have hclear : preRenderEvent s = preRenderClear s := if_pos ⟨hline, hdot⟩
  obtain ⟨hspr0, hsprovf⟩ := renderEvent_sprites (s := preRenderClear s)
    (by simp [preRenderClear, hline])
  rw [tickEvents, hentry, hclear, hspr0, hsprovf, renderEvent_same]
  exact ⟨rfl, rfl, rfl⟩

theorem tickEvents_vblank_of_dot_ne_one {s : State} (hdot : s.ppu.dot ≠ 1) :
    (tickEvents s).ppu.vblank = s.ppu.vblank := by
  have hentry : vblankEvent s = s := if_neg (by omega)
  have hclear : preRenderEvent s = s := if_neg (by omega)
  rw [tickEvents, hentry, hclear, renderEvent_same]

theorem tickEvents_sprites_of_dot_ne_one {s : State} (hline : 239 < s.ppu.scanline)
    (hdot : s.ppu.dot ≠ 1) :
    (tickEvents s).ppu.spr0 = s.ppu.spr0 ∧ (tickEvents s).ppu.sprovf = s.ppu.sprovf := by
  have hentry : vblankEvent s = s := if_neg (by omega)
  have hclear : preRenderEvent s = s := if_neg (by omega)
  rw [tickEvents, hentry, hclear]
  exact renderEvent_sprites hline

/-- The advance wraps from one of the last two dots of a line, and else goes one dot on (R281). -/
theorem advanceDot_position (s : State) :
    ((advanceDot s).ppu.dot = 0 ∧ 339 ≤ s.ppu.dot) ∨
      ((advanceDot s).ppu.dot = s.ppu.dot + 1 ∧ (advanceDot s).ppu.scanline = s.ppu.scanline) := by
  have hlast : 339 ≤ lastDot s.ppu.scanline s.ppu.odd := by
    unfold lastDot
    split <;> omega
  unfold advanceDot
  split
  case isTrue hend =>
    left
    split <;> exact ⟨rfl, hend ▸ hlast⟩
  case isFalse => exact .inr ⟨rfl, rfl⟩

theorem ppuTick_position (s : State) :
    ((ppuTick s).ppu.dot = 0 ∧ 339 ≤ s.ppu.dot) ∨
      ((ppuTick s).ppu.dot = s.ppu.dot + 1 ∧ (ppuTick s).ppu.scanline = s.ppu.scanline) := by
  obtain ⟨hline, hdot⟩ := tickEvents_position s
  rw [← hline, ← hdot]
  exact advanceDot_position (tickEvents s)

theorem ppuTick_latches (s : State) :
    (ppuTick s).nmiPending = (tickEvents s).nmiPending ∧
      (ppuTick s).ppu.vblank = (tickEvents s).ppu.vblank ∧
      (ppuTick s).ppu.spr0 = (tickEvents s).ppu.spr0 ∧
      (ppuTick s).ppu.sprovf = (tickEvents s).ppu.sprovf := by
  rw [ppuTick_eq_advanceDot, advanceDot_same]
  exact ⟨rfl, rfl, rfl, rfl⟩

theorem ppuTick_ctrl (s : State) : (ppuTick s).ppu.ctrl = s.ppu.ctrl := by
  rw [(ppuTick_frame s).same]

/-! ### The dots that have passed -/

/-- If dot 1 of scanline 241, or of scanline 261, is among the last `k` dots of the scanline, then what its
event did to the flags stands. -/
structure EventsDone (k : Nat) (s : State) : Prop where
  entry : s.ppu.scanline = 241 → 2 ≤ s.ppu.dot → s.ppu.dot ≤ k + 1 →
    s.ppu.vblank = true ∧ (s.ppu.ctrl.getLsbD 7 = true → s.nmiPending = true)
  clear : s.ppu.scanline = 261 → 2 ≤ s.ppu.dot → s.ppu.dot ≤ k + 1 →
    s.ppu.vblank = false ∧ s.ppu.spr0 = false ∧ s.ppu.sprovf = false

theorem EventsDone.zero (s : State) : EventsDone 0 s := ⟨by omega, by omega⟩

/-- One more dot: either it is dot 1 and its event acts now, or it changes neither flags nor latch. -/
theorem EventsDone.ppuTick {k : Nat} {s : State} (h : EventsDone k s) :
    EventsDone (k + 1) (ppuTick s) := by
  obtain ⟨hnmi, hvblank, hspr0, hsprovf⟩ := ppuTick_latches s
  have hpos := ppuTick_position s
  refine ⟨fun hline hlo hhi => ?entry, fun hline hlo hhi => ?clear⟩
  case entry =>
    rw [hnmi, hvblank, ppuTick_ctrl]
    by_cases hdot : s.ppu.dot = 1
    · obtain ⟨hset, hlatch⟩ := tickEvents_vblankEntry (s := s) (by omega) hdot
      exact ⟨hset, fun hctrl => by rw [hlatch, hctrl, Bool.or_true]⟩
    · rw [tickEvents_vblank_of_dot_ne_one hdot, tickEvents_nmiPending (by omega)]
      exact h.entry (by omega) (by omega) (by omega)
  case clear =>
    rw [hvblank, hspr0, hsprovf]
    by_cases hdot : s.ppu.dot = 1
    · exact tickEvents_preRenderClear (by omega) hdot
    · obtain ⟨h0, hovf⟩ := tickEvents_sprites_of_dot_ne_one (s := s) (by omega) hdot
      rw [tickEvents_vblank_of_dot_ne_one hdot, h0, hovf]
      exact h.clear (by omega) (by omega) (by omega)

/-- Where a set latch comes from when it was clear `k` dots ago: the entry at dot 1 of scanline 241. -/
def NmiFromEntry (k : Nat) (s : State) : Prop :=
  s.nmiPending = true →
    s.ppu.ctrl.getLsbD 7 = true ∧ s.ppu.scanline = 241 ∧ 2 ≤ s.ppu.dot ∧ s.ppu.dot ≤ k + 1

/-- One more dot: the entry sets the latch now, or the position moves on from the entry; fewer than a
scanline's dots do not wrap. -/
theorem NmiFromEntry.ppuTick {k : Nat} {s : State} (hk : k + 1 < 339) (h : NmiFromEntry k s) :
    NmiFromEntry (k + 1) (ppuTick s) := by
  intro hset
  have hpos := ppuTick_position s
  rw [(ppuTick_latches s).1] at hset
  rw [ppuTick_ctrl]
  by_cases hentry : s.ppu.scanline = 241 ∧ s.ppu.dot = 1
  · obtain ⟨hline, hdot⟩ := hentry
    rw [(tickEvents_vblankEntry hline hdot).2, Bool.or_eq_true] at hset
    have hctrl : s.ppu.ctrl.getLsbD 7 = true := hset.elim (fun hs => (h hs).1) id
    exact ⟨hctrl, by omega⟩
  · rw [tickEvents_nmiPending hentry] at hset
    obtain ⟨hctrl, hbefore⟩ := h hset
    exact ⟨hctrl, by omega⟩

theorem deviceTicks_eventsDone (s : State) : EventsDone 3 (deviceTicks s) := by
  obtain ⟨hentry, hclear⟩ := (EventsDone.zero s).ppuTick.ppuTick.ppuTick
  exact ⟨hentry, hclear⟩

theorem deviceTicks_nmiFromEntry {s : State} (h : s.nmiPending = false) :
    NmiFromEntry 3 (deviceTicks s) := by
  have h0 : NmiFromEntry 0 s := fun hset => absurd (h.symm.trans hset) Bool.false_ne_true
  exact ((h0.ppuTick (by decide)).ppuTick (by decide)).ppuTick (by decide)

/-! ### The CPU's part of a cycle never sets the latch -/

theorem SameButDevices.nmiPending {s t : State} (h : SameButDevices s t) :
    t.nmiPending = s.nmiPending := by rw [h]

theorem memWrite_nmiPending {a : Word} {v : Byte} {s t : State} (h : memWrite a v s = .ok t) :
    t.nmiPending = s.nmiPending := by rw [memWrite_same h]

theorem loadOperand_nmiPending {o : ReadOperand} {s t : State} {b : Byte}
    (h : loadOperand o s = .ok (b, t)) : t.nmiPending = s.nmiPending := by
  cases o with
  | imm c =>
    cases h
    rfl
  | mem m => exact (memRead_same h).nmiPending

theorem loadTarget_nmiPending {o : ModOperand} {s t : State} {b : Byte}
    (h : loadTarget o s = .ok (b, t)) : t.nmiPending = s.nmiPending := by
  cases o with
  | acc =>
    cases h
    rfl
  | mem m => exact (memRead_same h).nmiPending

theorem storeResult_nmiPending {o : ModOperand} {s0 s t : State} {v : Byte}
    (h : storeResult o s0 v s = .ok t) : t.nmiPending = s.nmiPending := by
  cases o with
  | acc =>
    cases h
    rfl
  | mem m => exact memWrite_nmiPending h

theorem readPointer_nmiPending {ptr w : Word} {s t : State} (h : readPointer ptr s = .ok (w, t)) :
    t.nmiPending = s.nmiPending := by
  unfold readPointer at h
  split at h
  · cases h
  · next hlow =>
    split at h
    · cases h
    · next hhigh =>
      cases h
      exact ((memRead_same hlow).trans (memRead_same hhigh)).nmiPending

theorem finish_nmiPending (len n : Nat) (s : State) :
    (finish len n s).nmiPending = s.nmiPending := by
  rw [finish_eq]

theorem charge_nmiPending (n : Nat) (s : State) : (charge n s).nmiPending = s.nmiPending := by
  rw [charge_eq]

theorem interrupt_nmiPending (k : InterruptKind) (s : State) :
    (interrupt k s).nmiPending = s.nmiPending := by
  rw [interrupt_eq]

theorem returnFromInterrupt_nmiPending (s : State) :
    (returnFromInterrupt s).nmiPending = s.nmiPending := by
  rw [returnFromInterrupt_eq]

/-- The outcome, where it is a next state, has the latch of `s`. -/
def KeepsNmi (s : State) (o : Host.Outcome State Fault Refusal) : Prop :=
  ∀ t, o = .next t → t.nmiPending = s.nmiPending

theorem KeepsNmi.next {s t : State} (h : t.nmiPending = s.nmiPending) : KeepsNmi s (.next t) :=
  fun _ ht => by cases ht; exact h

theorem readInstr_keepsNmi (o : ReadOperand) {f : Byte → State → State}
    (hf : ∀ b u, (f b u).nmiPending = u.nmiPending) (s : State) : KeepsNmi s (readInstr o f s) := by
  intro t h
  obtain ⟨b, u, hload, rfl⟩ := readInstr_cases h
  rw [finish_nmiPending, hf, loadOperand_nmiPending hload]

theorem storeInstr_keepsNmi (m : MemMode) (v : Byte) (s : State) : KeepsNmi s (storeInstr m v s) := by
  intro t h
  obtain ⟨u, hwrite, rfl⟩ := storeInstr_cases h
  rw [finish_nmiPending, memWrite_nmiPending hwrite]

theorem modifyInstr_keepsNmi (o : ModOperand) (n : Nat) (f : Byte → Flags → Byte × Flags) (s : State) :
    KeepsNmi s (modifyInstr o n f s) := by
  intro t h
  obtain ⟨b, u, w, hload, hstore, rfl⟩ := modifyInstr_cases h
  rw [finish_nmiPending, State.setP_nmiPending, storeResult_nmiPending hstore,
    loadTarget_nmiPending hload]

theorem branchInstr_keepsNmi (cond : Bool) (off : Byte) (s : State) :
    KeepsNmi s (branchInstr cond off s) := by
  unfold branchInstr
  split <;> exact .next rfl

theorem execJmp_keepsNmi (m : JmpForm) (s : State) : KeepsNmi s (execJmp m s) := by
  cases m with
  | abs w => exact .next rfl
  | ind ptr =>
    simp only [execJmp]
    split
    · exact fun _ h => nomatch h
    · next hread =>
      refine .next ?_
      rw [charge_nmiPending, State.setPc_nmiPending, readPointer_nmiPending hread]

/-- No instruction touches the latch: each is one of the shapes above, or its equation leaves the latch. -/
theorem exec_keepsNmi (i : Instr) (s : State) : KeepsNmi s (exec i s) := by
  cases i with
  | lda | ldx | ldy | adc | sbc | and | ora | eor | cmp | cpx | cpy | bit =>
    refine readInstr_keepsNmi _ ?_ s
    exact fun _ _ => rfl
  | sta | stx | sty => exact storeInstr_keepsNmi _ _ s
  | inc | dec | asl | lsr | rol | ror => exact modifyInstr_keepsNmi _ _ _ s
  | bcc | bcs | beq | bne | bmi | bpl | bvc | bvs => exact branchInstr_keepsNmi _ _ s
  | jmp m => exact execJmp_keepsNmi m s
  | jsr w => exact .next (by rw [charge_nmiPending, State.setPc_nmiPending, push16_eq_pushed16])
  | rts => exact .next (by rw [charge_nmiPending, State.setPc_nmiPending, pull16_eq])
  | brk => exact .next ((charge_nmiPending _ _).trans (interrupt_nmiPending _ _))
  | rti => exact .next ((charge_nmiPending _ _).trans (returnFromInterrupt_nmiPending _))
  | _ => exact .next rfl

/-- A fetch is one, two or three reads. -/
theorem fetchInstr_same {i : Instr} {s t : State} (h : fetchInstr s = .ok (i, t)) :
    SameButDevices s t := by
  unfold fetchInstr at h
  split at h
  · cases h
  · next hop =>
    have h0 := memRead_same hop
    split at h
    · cases h; exact h0
    · split at h
      · cases h
      · next hlow => cases h; exact h0.trans (memRead_same hlow)
    · split at h
      · cases h
      · next hlow =>
        split at h
        · cases h
        · next hhigh => cases h; exact (h0.trans (memRead_same hlow)).trans (memRead_same hhigh)

theorem executeOne_keepsNmi (s : State) : KeepsNmi s (executeOne s) := by
  unfold executeOne
  split
  · exact fun _ h => nomatch h
  · next hfetch => exact fun t h => (exec_keepsNmi _ _ t h).trans (fetchInstr_same hfetch).nmiPending

theorem serviceInterrupt_nmiPending (k : InterruptKind) (s : State) :
    (serviceInterrupt k s).nmiPending = s.nmiPending := by
  rw [serviceInterrupt, State.setWait_nmiPending, interrupt_nmiPending]

/-- A boundary action without a latched NMI is an IRQ entry or an instruction, and both keep the latch
(R255). -/
theorem boundaryAction_keepsNmi {s : State} (hs : s.nmiPending = false) :
    KeepsNmi s (boundaryAction s) := by
  rw [boundaryAction, if_neg (Bool.eq_false_iff.mp hs)]
  split
  · exact .next (serviceInterrupt_nmiPending .irq s)
  · exact executeOne_keepsNmi s

/-- The CPU's part of a cycle never sets the latch (R250). -/
theorem cpuCycle_keepsNmi {s : State} (hs : s.nmiPending = false) : KeepsNmi s (cpuCycle s) := by
  unfold cpuCycle
  split
  · exact .next rfl
  · exact boundaryAction_keepsNmi (s := s.setCyc (s.cyc + 1)) hs

/-- A step is the CPU's part of a cycle and then the device ticks (R300). -/
theorem step_next {s t : State} (h : step s = .next t) :
    ∃ u, cpuCycle s = .next u ∧ t = deviceTicks u := by
  unfold step clockCycle at h
  split at h
  · next u hu =>
    cases h
    exact ⟨u, hu, rfl⟩
  · cases h
  · cases h

/-- Settles O54: the device ticks pass three dots (`deviceTicks_eventsDone`, `deviceTicks_nmiFromEntry`),
and the CPU's part before them sets no latch. -/
theorem vblankAndPreRender : Obligations.VblankAndPreRender := by
  intro s t h
  obtain ⟨u, hcpu, rfl⟩ := step_next h
  obtain ⟨hentry, hclear⟩ := deviceTicks_eventsDone u
  exact ⟨fun hs => deviceTicks_nmiFromEntry ((cpuCycle_keepsNmi hs u hcpu).trans hs), hentry, hclear⟩

end Sys2Proof.Machine

/-! PROOFS for O1, O2, O4 and O5: the encoder and the decoder (30_encoding.md R100 to R108). -/

namespace Sys2Proof

open Machine (hi8 lo8 word)

/-! ### From an instruction to its row -/

/-- A word assembled from its own two bytes (00_scope.md R8). -/
theorem word_hi8_lo8 (w : Word) : word (hi8 w) (lo8 w) = w := by
  apply BitVec.eq_of_toNat_eq
  rw [Machine.word_toNat, Machine.hi8_toNat, Machine.lo8_toNat]
  omega

theorem hi8_word (h l : Byte) : hi8 (word h l) = h := by
  rw [Machine.hi8_eq_high, Machine.high_word]

theorem lo8_word (h l : Byte) : lo8 (word h l) = l := by
  rw [Machine.lo8_eq_low, Machine.low_word]

/-- The row gives `i` when it is read with the operand bytes of `i`. -/
def OpcodeRow.Gives (i : Instr) : OpcodeRow → Prop
  | .f1 j => j = i ∧ i.operandBytes = []
  | .f2 g => ∃ b, g b = i ∧ i.operandBytes = [b]
  | .f3 g => ∃ w, g w = i ∧ i.operandBytes = [lo8 w, hi8 w]

theorem decode_f1 {op : Byte} {i : Instr} (h : opcodeRow op = .f1 i) (rest : List Byte) :
    decode (op :: rest) = .ok (i, rest) := by simp only [decode, h]

theorem decode_f2 {op : Byte} {g : Byte → Instr} (h : opcodeRow op = .f2 g) (b1 : Byte)
    (rest : List Byte) : decode (op :: b1 :: rest) = .ok (g b1, rest) := by simp only [decode, h]

theorem decode_f3 {op : Byte} {g : Word → Instr} (h : opcodeRow op = .f3 g) (b1 b2 : Byte)
    (rest : List Byte) : decode (op :: b1 :: b2 :: rest) = .ok (g (word b2 b1), rest) := by
  simp only [decode, h]

theorem decode_encode_of_gives {i : Instr} (h : (opcodeRow i.opcode).Gives i) (rest : List Byte) :
    decode (encode i ++ rest) = .ok (i, rest) := by
  rw [encode]
  cases hrow : opcodeRow i.opcode with
  | f1 j =>
    rw [hrow] at h
    obtain ⟨hj, hbytes⟩ := h
    rw [hbytes]
    exact (decode_f1 hrow rest).trans (by rw [hj])
  | f2 g =>
    rw [hrow] at h
    obtain ⟨b, hg, hbytes⟩ := h
    rw [hbytes]
    exact (decode_f2 hrow b rest).trans (by rw [hg])
  | f3 g =>
    rw [hrow] at h
    obtain ⟨w, hg, hbytes⟩ := h
    rw [hbytes]
    exact (decode_f3 hrow (lo8 w) (hi8 w) rest).trans (by rw [word_hi8_lo8, hg])

/-- An undefined value stands in the map as its own row (R107). -/
theorem opcodeRow_undefined : ∀ op ∈ undefinedOpcodes, opcodeRow op = .f1 (.und op) := by
  simp only [undefinedOpcodes, List.forall_mem_append, List.forall_mem_cons, List.not_mem_nil,
    false_implies, implies_true, and_true]
  and_intros
  all_goals rfl

/-- The map at the opcode of a well-formed instruction has that instruction's row (R105, R106). -/
theorem opcodeRow_gives (i : Instr) (h : i.wf = true) : (opcodeRow i.opcode).Gives i := by
  cases i with
  | und op =>
    rw [Instr.opcode, opcodeRow_undefined op (List.contains_iff_mem.mp h)]
    exact ⟨rfl, rfl⟩
  | lda m | ldx m | ldy m | sta m | stx m | sty m | adc m | sbc m | and m | ora m | eor m | cmp m
  | cpx m | cpy m | bit m | inc m | dec m | jmp m => cases m <;> exact ⟨_, rfl, rfl⟩
  | asl m | lsr m | rol m | ror m =>
    cases m with
    | acc => exact ⟨rfl, rfl⟩
    | zp b | zpx b => exact ⟨b, rfl, rfl⟩
    | abs w | abx w => exact ⟨w, rfl, rfl⟩
  | jsr w => exact ⟨w, rfl, rfl⟩
  | bcc off | bcs off | beq off | bne off | bmi off | bpl off | bvc off | bvs off =>
    exact ⟨off, rfl, rfl⟩
  | _ => exact ⟨rfl, rfl⟩

/-- Settles O1: the map has at the opcode of `i` a row that gives `i` from its operand bytes
(`opcodeRow_gives`), and the decoder reads that row (`decode_encode_of_gives`). -/
theorem decodeEncodeRoundTrip : Obligations.DecodeEncodeRoundTrip :=
  fun i rest h => decode_encode_of_gives (opcodeRow_gives i h) rest

/-! ### From a row to the bytes of its instructions -/

/-- The operand field of the row is the operand bytes of its instructions (R101, R103). -/
def OpcodeRow.FieldIsBytes : OpcodeRow → Prop
  | .f1 i => i.operandBytes = []
  | .f2 g => ∀ b, (g b).operandBytes = [b]
  | .f3 g => ∀ w, (g w).operandBytes = [lo8 w, hi8 w]

theorem opcodeMap_fieldIsBytes : ∀ r ∈ opcodeMap, r.FieldIsBytes := by
  simp only [opcodeMap, opcodeRow0, opcodeRow1, opcodeRow2, opcodeRow3, opcodeRow4, opcodeRow5,
    opcodeRow6, opcodeRow7, opcodeRow8, opcodeRow9, opcodeRowA, opcodeRowB, opcodeRowC, opcodeRowD,
    opcodeRowE, opcodeRowF, List.forall_mem_append, List.forall_mem_cons, List.not_mem_nil,
    false_implies, implies_true, and_true, OpcodeRow.FieldIsBytes]
  and_intros
  all_goals
    intros
    rfl

theorem opcodeRow_fieldIsBytes (op : Byte) : (opcodeRow op).FieldIsBytes := by
  rw [opcodeRow, List.getD_eq_getElem?_getD]
  cases h : opcodeMap[op.toNat]? with
  | none => exact rfl
  | some r => exact opcodeMap_fieldIsBytes r (List.mem_of_getElem? h)

/-- Whatever the operand bytes are, a row's instruction has that row's opcode byte and is well formed. -/
theorem opcodeRow_instr_opcode (op b1 b2 : Byte) :
    ((opcodeRow op).instr b1 b2).opcode = op ∧ ((opcodeRow op).instr b1 b2).wf = true := by
  obtain ⟨hop, hwf, -⟩ := opcodeRow_instr_zero op
  have hrow := (opcodeRow_operandFree op).instr b1 b2 0#8 0#8
  exact ⟨hrow.opcode.trans hop, hrow.wf.trans hwf⟩

/-- What the decoder accepts is a row's instruction, and the bytes it takes are that instruction's. -/
theorem decode_ok {bytes rest : List Byte} {i : Instr} (h : decode bytes = .ok (i, rest)) :
    ∃ op b1 b2, i = (opcodeRow op).instr b1 b2 ∧ bytes = op :: (i.operandBytes ++ rest) := by
  cases bytes with
  | nil => cases h
  | cons op tail =>
    have hfield := opcodeRow_fieldIsBytes op
    simp only [decode] at h
    split at h
    case h_1 j hrow =>
      cases h
      rw [hrow] at hfield
      exact ⟨op, 0#8, 0#8, by rw [hrow]; rfl, by rw [hfield]; rfl⟩
    case h_2 g b1 tail' hrow =>
      cases h
      rw [hrow] at hfield
      exact ⟨op, b1, 0#8, by rw [hrow]; rfl, by rw [hfield]; rfl⟩
    case h_3 g b1 b2 tail' hrow =>
      cases h
      rw [hrow] at hfield
      exact ⟨op, b1, b2, by rw [hrow]; rfl, by rw [hfield, lo8_word, hi8_word]; rfl⟩
    case h_4 => cases h

theorem operandBytes_length_le_two (op b1 b2 : Byte) :
    ((opcodeRow op).instr b1 b2).operandBytes.length ≤ 2 := by
  have hfield := opcodeRow_fieldIsBytes op
  cases hrow : opcodeRow op with
  | f1 i => rw [hrow] at hfield; simp [OpcodeRow.instr, show i.operandBytes = [] from hfield]
  | f2 g => rw [hrow] at hfield; simp [OpcodeRow.instr, show ∀ b, (g b).operandBytes = [b] from hfield]
  | f3 g =>
    rw [hrow] at hfield
    simp [OpcodeRow.instr, show ∀ w, (g w).operandBytes = [lo8 w, hi8 w] from hfield]

/-- Settles O2: the bytes taken are those of the row's instruction (`decode_ok`), whose opcode byte is the
first of them (`opcodeRow_instr_opcode`). -/
theorem encodeDecodeRoundTrip : Obligations.EncodeDecodeRoundTrip := by
  intro bytes rest i h
  obtain ⟨op, b1, b2, rfl, rfl⟩ := decode_ok h
  obtain ⟨hop, hwf⟩ := opcodeRow_instr_opcode op b1 b2
  have hlen := operandBytes_length_le_two op b1 b2
  refine ⟨by rw [encode, hop]; rfl, hwf, ?_, ?_, ?_⟩
  · rw [encode, List.length_cons, Instr.length, Nat.add_comm]
  · rw [Instr.length]; omega
  · rw [Instr.length]; omega

/-! ### The undefined values -/

/-- A list of bytes as a number whose bit `b` says whether the byte `b` is among them. -/
def byteMask (l : List Byte) : Nat := l.foldr (fun b m => 2 ^ b.toNat ||| m) 0

theorem byteMask_testBit (l : List Byte) (op : Byte) :
    (byteMask l).testBit op.toNat = l.contains op := by
  induction l with
  | nil => exact Nat.zero_testBit _
  | cons b l ih =>
    have hb : decide (b.toNat = op.toNat) = (op == b) := by
      simp only [BitVec.toNat_inj, eq_comm (a := b)]; rfl
    rw [byteMask, List.foldr_cons, Nat.testBit_or, Nat.testBit_two_pow, ← byteMask, ih, hb,
      List.contains_cons]

theorem documentedOpcodes_length : Spec.documentedOpcodes.length = 151 := by
  simp only [Spec.documentedOpcodes, List.length_append, List.length_cons, List.length_nil]

theorem undefinedOpcodes_length : undefinedOpcodes.length = 105 := rfl

set_option maxRecDepth 2000 in
theorem byteMask_undefined_xor_documented :
    byteMask undefinedOpcodes ^^^ byteMask Spec.documentedOpcodes = 2 ^ 256 - 1 := by decide

/-- The two tables share no byte and leave none out (R107, R241). -/
theorem undefinedOpcodes_contains_eq_not (op : Byte) :
    undefinedOpcodes.contains op = !Spec.documentedOpcodes.contains op := by
  have hbit := congrArg (Nat.testBit · op.toNat) byteMask_undefined_xor_documented
  simp only [Nat.testBit_xor, byteMask_testBit, Nat.testBit_two_pow_sub_one, op.isLt, decide_true] at hbit
  exact Bool.eq_not_iff.mpr (by simpa using hbit)

/-- 256 bytes among which no byte is missing hold none twice. -/
theorem nodup_of_covers_bytes {l : List Byte} (hlen : l.length = 256) (hcovers : ∀ b, b ∈ l) :
    l.Nodup := by
  have huniv : (l.map BitVec.toFin).toFinset = Finset.univ :=
    Finset.eq_univ_of_forall fun k =>
      List.mem_toFinset.mpr (List.mem_map.mpr ⟨BitVec.ofFin k, hcovers _, rfl⟩)
  have hcard : (l.map BitVec.toFin).toFinset.card = (l.map BitVec.toFin).length := by
    rw [huniv, Finset.card_univ, Fintype.card_fin, List.length_map, hlen]
  exact List.Nodup.of_map _ (Multiset.toFinset_card_eq_card_iff_nodup.mp hcard)

/-- The two tables hold 256 bytes together, and every byte is in one of them, so none is there twice. -/
theorem documentedOpcodes_nodup : Spec.documentedOpcodes.Nodup := by
  have hall : (Spec.documentedOpcodes ++ undefinedOpcodes).Nodup :=
    nodup_of_covers_bytes (by rw [List.length_append, documentedOpcodes_length, undefinedOpcodes_length])
      fun op => by
      have hop := undefinedOpcodes_contains_eq_not op
      rw [List.mem_append, ← List.contains_iff_mem, ← List.contains_iff_mem (as := undefinedOpcodes), hop]
      cases Spec.documentedOpcodes.contains op <;> simp
  exact (List.nodup_append.mp hall).1

theorem mnemonic_eq_und_iff (i : Instr) : Spec.mnemonic i = "UND" ↔ ∃ op, i = .und op := by
  cases i <;> simp [Spec.mnemonic]

/-- Settles O5: an undefined value is its own row (`opcodeRow_undefined`); what any other byte decodes to
has that byte as its opcode and is well formed, which no UND of it is. -/
theorem undefinedOpcodesAreTheComplement : Obligations.UndefinedOpcodesAreTheComplement := by
  refine ⟨documentedOpcodes_length, documentedOpcodes_nodup, undefinedOpcodes_length, fun op rest =>
    ⟨undefinedOpcodes_contains_eq_not op, fun hop => ?undefined, fun hop i r h hund => ?documented⟩⟩
  case undefined =>
    have hmem : undefinedOpcodes.contains op = true := by
      rw [undefinedOpcodes_contains_eq_not, hop]; rfl
    exact decode_f1 (opcodeRow_undefined op (List.contains_iff_mem.mp hmem)) rest
  case documented =>
    obtain ⟨op', b1, b2, rfl, hbytes⟩ := decode_ok h
    obtain ⟨hop', hwf⟩ := opcodeRow_instr_opcode op' b1 b2
    obtain ⟨opu, hi⟩ := (mnemonic_eq_und_iff _).mp hund
    obtain ⟨rfl, -⟩ := List.cons.inj hbytes
    rw [hi] at hop' hwf
    obtain rfl : opu = op := hop'
    have hno := undefinedOpcodes_contains_eq_not opu
    rw [hop, show undefinedOpcodes.contains opu = true from hwf] at hno
    cases hno

/-- Settles O4: each word is read off its row of the map. -/
theorem sampleEncodings : Obligations.SampleEncodings := by
  and_intros
  all_goals rfl

end Sys2Proof

/-! What an instruction and a step are made of: bus accesses, and changes of the CPU's own elements. A
relation that both have, and that composes, is the relation of every instruction. -/

namespace Sys2Proof.Machine

open Spec (storesNothing)

/-- `t` is `s` but for the registers, the flags and the cost: what an instruction does beside its accesses. -/
abbrev SameButCpu (s t : State) : Prop :=
  t = { s with a := t.a, x := t.x, y := t.y, sp := t.sp, pc := t.pc, p := t.p, wait := t.wait,
               dmaExtra := t.dmaExtra }

/-- A relation that the parts of an instruction other than its writes have, and that composes. -/
structure AccessRelation (R : State → State → Prop) : Prop where
  trans : ∀ {s t u}, R s t → R t u → R s u
  cpu : ∀ {s t}, SameButCpu s t → R s t
  read : ∀ {a s t b}, memRead a s = .ok (b, t) → R s t

/-- The relation is that of a bus write as well. -/
def RelatesWrites (R : State → State → Prop) : Prop :=
  ∀ {a v s t}, memWrite a v s = .ok t → R s t

/-- Where the outcome is a next state, it is the charge of a cost to a state that `R` relates to `s`. -/
def ChargedRel (R : State → State → Prop) (s : State) (o : Host.Outcome State Fault Refusal) : Prop :=
  ∀ t, o = .next t → ∃ n u, R s u ∧ t = charge n u

theorem ChargedRel.next {R : State → State → Prop} {s u : State} (n : Nat) (h : R s u) :
    ChargedRel R s (.next (charge n u)) :=
  fun _ ht => ⟨n, u, h, by cases ht; rfl⟩

section
variable {R : State → State → Prop} (hR : AccessRelation R)
include hR

theorem loadOperand_rel {o : ReadOperand} {s t : State} {b : Byte} (h : loadOperand o s = .ok (b, t)) :
    R s t := by
  cases o with
  | imm c => cases h; exact hR.cpu rfl
  | mem m => exact hR.read h

theorem loadTarget_rel {o : ModOperand} {s t : State} {b : Byte} (h : loadTarget o s = .ok (b, t)) :
    R s t := by
  cases o with
  | acc => cases h; exact hR.cpu rfl
  | mem m => exact hR.read h

theorem storeResult_rel {o : ModOperand} {s0 s t : State} {v : Byte}
    (hw : ∀ m, o = .mem m → RelatesWrites R) (h : storeResult o s0 v s = .ok t) : R s t := by
  cases o with
  | acc => cases h; exact hR.cpu rfl
  | mem m => exact hw m rfl h

theorem readPointer_rel {ptr w : Word} {s t : State} (h : readPointer ptr s = .ok (w, t)) : R s t := by
  unfold readPointer at h
  split at h
  · cases h
  · next hlow =>
    split at h
    · cases h
    · next hhigh =>
      cases h
      exact hR.trans (hR.read hlow) (hR.read hhigh)

theorem readInstr_rel (o : ReadOperand) {f : Byte → State → State}
    (hf : ∀ b u, SameButCpu u (f b u)) (s : State) : ChargedRel R s (readInstr o f s) := by
  intro t h
  obtain ⟨b, u, hload, rfl⟩ := readInstr_cases h
  exact ⟨_, _, hR.trans (loadOperand_rel hR hload) (hR.trans (hR.cpu (hf b u)) (hR.cpu rfl)), rfl⟩

theorem storeInstr_rel (hw : RelatesWrites R) (m : MemMode) (v : Byte) (s : State) :
    ChargedRel R s (storeInstr m v s) := by
  intro t h
  obtain ⟨u, hwrite, rfl⟩ := storeInstr_cases h
  exact ⟨_, _, hR.trans (hw hwrite) (hR.cpu rfl), rfl⟩

theorem modifyInstr_rel {o : ModOperand} (hw : ∀ m, o = .mem m → RelatesWrites R) (n : Nat)
    (f : Byte → Flags → Byte × Flags) (s : State) : ChargedRel R s (modifyInstr o n f s) := by
  intro t h
  obtain ⟨b, u, w, hload, hstore, rfl⟩ := modifyInstr_cases h
  exact ⟨_, _, hR.trans (loadTarget_rel hR hload)
    (hR.trans (storeResult_rel hR hw hstore) (hR.cpu rfl)), rfl⟩

theorem branchInstr_rel (cond : Bool) (off : Byte) (s : State) :
    ChargedRel R s (branchInstr cond off s) := by
  unfold branchInstr
  split <;> exact .next _ (hR.cpu rfl)

theorem execJmp_rel (m : JmpForm) (s : State) : ChargedRel R s (execJmp m s) := by
  cases m with
  | abs w => exact .next _ (hR.cpu rfl)
  | ind ptr =>
    simp only [execJmp]
    split
    · exact fun _ h => nomatch h
    · next hread => exact .next _ (hR.trans (readPointer_rel hR hread) (hR.cpu rfl))

/-- A push is a bus write and the decrement of `S` (`push8_bus`). -/
theorem push8_rel (hw : RelatesWrites R) (v : Byte) (s : State) : R s (push8 v s) := by
  obtain ⟨t, hwrite, hpush⟩ := push8_bus v s
  rw [hpush]
  exact hR.trans (hw hwrite) (hR.cpu rfl)

theorem push16_rel (hw : RelatesWrites R) (w : Word) (s : State) : R s (push16 w s) :=
  hR.trans (push8_rel hR hw _ s) (push8_rel hR hw _ _)

/-- A read of the cartridge window is a bus read (R64). -/
theorem cartRead_rel {a : Word} (ha : 0x4018 ≤ a.toNat) (s : State) : R s (cartRead a s).2 := by
  have hread : memRead a s = .ok (cartRead a s) := by
    rw [memRead, if_neg (by omega), if_neg (by omega), if_neg (by omega)]
  exact hR.read hread

theorem readVector_rel (k : InterruptKind) (s : State) : R s (readVector k.vector s).2 := by
  have hlow : 0x4018 ≤ k.vector.toNat := by cases k <;> decide
  have hhigh : 0x4018 ≤ (k.vector + 1#16).toNat := by cases k <;> decide
  exact hR.trans (cartRead_rel hR hlow s) (cartRead_rel hR hhigh _)

theorem setP_rel (s : State) (f : Flags) : R s (s.setP f) := hR.cpu rfl

theorem setPc_rel (s : State) (w : Word) : R s (s.setPc w) := hR.cpu rfl

theorem setWait_rel (s : State) (n : Nat) : R s (s.setWait n) := hR.cpu rfl

/-- The state of an entry before it reads its vector. -/
theorem interrupt_pushes_rel (hw : RelatesWrites R) (k : InterruptKind) (s : State) :
    R s (push8 (s.p.pack k.marker) (push16 (k.returnAddress s.pc) s)) :=
  hR.trans (push16_rel hR hw _ s) (push8_rel hR hw _ _)

theorem interrupt_rel (hw : RelatesWrites R) (k : InterruptKind) (s : State) : R s (interrupt k s) :=
  hR.trans (hR.trans (interrupt_pushes_rel hR hw k s) (setP_rel hR _ _))
    (hR.trans (readVector_rel hR k _) (setPc_rel hR _ _))

/-- Every instruction has the relation; one that stores nothing has it even if a bus write does not. -/
theorem exec_chargedRel (i : Instr) (s : State) (hw : storesNothing i = false → RelatesWrites R) :
    ChargedRel R s (exec i s) := by
  cases i with
  | lda | ldx | ldy | adc | sbc | and | ora | eor | cmp | cpx | cpy | bit =>
    refine readInstr_rel hR _ ?_ s
    exact fun _ _ => rfl
  | sta | stx | sty => exact storeInstr_rel hR (hw rfl) _ _ s
  | inc m | dec m => exact modifyInstr_rel hR (fun _ _ => hw (by cases m <;> rfl)) _ _ s
  | asl m | lsr m | rol m | ror m =>
    cases m with
    | acc => exact modifyInstr_rel hR (o := .acc) (fun _ hm => by cases hm) _ _ s
    | zp | zpx | abs | abx => exact modifyInstr_rel hR (fun _ _ => hw rfl) _ _ s
  | bcc | bcs | beq | bne | bmi | bpl | bvc | bvs => exact branchInstr_rel hR _ _ s
  | jmp m => exact execJmp_rel hR m s
  | jsr w => exact .next _ (hR.trans (push16_rel hR (hw rfl) _ s) (hR.cpu rfl))
  | pha | php => exact .next _ (hR.trans (push8_rel hR (hw rfl) _ s) (hR.cpu rfl))
  | brk => exact .next _ (interrupt_rel hR (hw rfl) .brk s)
  | _ => exact .next _ (hR.cpu rfl)

theorem exec_rel {i : Instr} {s t : State} (hw : storesNothing i = false → RelatesWrites R)
    (h : exec i s = .next t) : R s t := by
  obtain ⟨n, u, hu, rfl⟩ := exec_chargedRel hR i s hw t h
  exact hR.trans hu (hR.cpu rfl)

end

/-- Every instruction ends with its cost charged, which uses up the DMA stall (R250). -/
theorem exec_dmaExtra {i : Instr} {s t : State} (h : exec i s = .next t) : t.dmaExtra = 0 := by
  have htriv : AccessRelation fun _ _ => True := ⟨fun _ _ => trivial, fun _ => trivial, fun _ => trivial⟩
  obtain ⟨n, u, -, rfl⟩ := exec_chargedRel htriv i s (fun _ _ _ _ _ _ => trivial) t h
  rfl

end Sys2Proof.Machine

/-! PROOFS for O52 and O51: the raster and the frame sequencer over any number of ticks (60_exceptions.md
R280, R281, R292). -/

namespace Sys2Proof.Machine

/-! ### The raster as a system of its own -/

/-- The raster counters, the parity and the end-of-frame latch. -/
structure Raster where
  scanline : Nat
  dot : Nat
  odd : Bool
  complete : Bool

def State.raster (s : State) : Raster :=
  { scanline := s.ppu.scanline, dot := s.ppu.dot, odd := s.ppu.odd, complete := s.frameComplete }

/-- The advance of the counters in `PpuTick()` (R281). -/
def Raster.next (r : Raster) : Raster :=
  if r.dot = lastDot r.scanline r.odd then
    if r.scanline = 261 then { scanline := 0, dot := 0, odd := !r.odd, complete := true }
    else { r with dot := 0, scanline := r.scanline + 1 }
  else { r with dot := r.dot + 1 }

theorem advanceDot_raster (s : State) : (advanceDot s).raster = s.raster.next := by
  rw [advanceDot, apply_ite State.raster, apply_ite State.raster]
  rfl

theorem tickEvents_raster (s : State) : (tickEvents s).raster = s.raster := by
  have hvblank : (vblankEvent s).raster = s.raster := by unfold vblankEvent; split <;> rfl
  have hclear : ∀ u : State, (preRenderEvent u).raster = u.raster := fun u => by
    unfold preRenderEvent; split <;> rfl
  rw [tickEvents, renderEvent_same]
  exact (hclear _).trans hvblank

/-- A dot moves the raster by one, whatever else the state holds. -/
theorem ppuTick_raster (s : State) : (ppuTick s).raster = s.raster.next := by
  rw [ppuTick_eq_advanceDot, advanceDot_raster, tickEvents_raster]

theorem ppuTick_iterate_raster (k : Nat) (s : State) :
    (ppuTick^[k] s).raster = Raster.next^[k] s.raster :=
  (Function.Semiconj.iterate_right (f := State.raster) ppuTick_raster k) s

theorem Raster.next_sameLine {r : Raster} (h : r.dot ≠ lastDot r.scanline r.odd) :
    r.next = { r with dot := r.dot + 1 } := if_neg h

theorem Raster.next_newLine {r : Raster} (h : r.dot = lastDot r.scanline r.odd)
    (hline : r.scanline ≠ 261) : r.next = { r with dot := 0, scanline := r.scanline + 1 } :=
  (if_pos h).trans (if_neg hline)

theorem Raster.next_newFrame {r : Raster} (h : r.dot = lastDot r.scanline r.odd)
    (hline : r.scanline = 261) :
    r.next = { scanline := 0, dot := 0, odd := !r.odd, complete := true } :=
  (if_pos h).trans (if_pos hline)

/-! ### The position as one number -/

/-- The number of dots of a frame (R280). -/
def frameDots (odd : Bool) : Nat := if odd then 89341 else 89342

/-- The raster at the dot of number `k` of a frame. -/
def Raster.at (odd complete : Bool) (k : Nat) : Raster :=
  { scanline := k / 341, dot := k % 341, odd := odd, complete := complete }

theorem lastDot_bounds (scanline : Nat) (odd : Bool) :
    339 ≤ lastDot scanline odd ∧ lastDot scanline odd ≤ 340 := by
  unfold lastDot; split <;> decide

theorem lastDot_of_ne {scanline : Nat} (h : scanline ≠ 261) (odd : Bool) :
    lastDot scanline odd = 340 := if_neg fun hs => h hs.1

/-- The last dot of a frame ends its last line. -/
theorem lastDot_lastLine (odd : Bool) : 341 * 261 + lastDot 261 odd + 1 = frameDots odd := by
  cases odd <;> rfl

/-- Every position of a frame has its number. -/
theorem Raster.eq_at {r : Raster} (hline : r.scanline < 262) (hdot : r.dot ≤ lastDot r.scanline r.odd) :
    r = Raster.at r.odd r.complete (341 * r.scanline + r.dot) ∧
      341 * r.scanline + r.dot < frameDots r.odd := by
  obtain ⟨scanline, dot, odd, complete⟩ := r
  dsimp only at hline hdot ⊢
  have hframe := lastDot_lastLine odd
  have hbounds := lastDot_bounds scanline odd
  refine ⟨?_, ?_⟩
  · simp only [Raster.at, Raster.mk.injEq, and_true]
    omega
  · by_cases hlast : scanline = 261
    · subst hlast; omega
    · have hbounds' := lastDot_bounds 261 odd
      omega

theorem Raster.at_next {odd complete : Bool} {k : Nat} (h : k + 1 < frameDots odd) :
    (Raster.at odd complete k).next = Raster.at odd complete (k + 1) := by
  have hframe := lastDot_lastLine odd
  have hbounds := lastDot_bounds 261 odd
  by_cases hend : k % 341 = lastDot (k / 341) odd
  · have hline : k / 341 ≠ 261 := fun hl => by rw [hl] at hend; omega
    have hlast := lastDot_of_ne hline odd
    rw [Raster.next_newLine hend hline]
    simp only [Raster.at, Raster.mk.injEq, and_true]
    omega
  · have hdot : k % 341 ≠ 340 := fun h340 => by
      by_cases hline : k / 341 = 261
      · rw [hline] at hend; omega
      · rw [lastDot_of_ne hline] at hend; omega
    rw [Raster.next_sameLine hend]
    simp only [Raster.at, Raster.mk.injEq, and_true]
    omega

theorem Raster.at_next_last {odd complete : Bool} {k : Nat} (h : k + 1 = frameDots odd) :
    (Raster.at odd complete k).next = Raster.at (!odd) true 0 := by
  have hframe := lastDot_lastLine odd
  have hbounds := lastDot_bounds 261 odd
  have hline : k / 341 = 261 := by omega
  have hend : k % 341 = lastDot (k / 341) odd := by rw [hline]; omega
  rw [Raster.next_newFrame hend hline]
  rfl

/-- Ticks inside a frame count the dots. -/
theorem Raster.at_iterate {odd complete : Bool} {k n : Nat} (h : k + n < frameDots odd) :
    Raster.next^[n] (Raster.at odd complete k) = Raster.at odd complete (k + n) := by
  induction n with
  | zero => rfl
  | succ n ih => rw [Function.iterate_succ_apply', ih (by omega), Raster.at_next (by omega)]; rfl

/-- The tick on the last dot ends the frame. -/
theorem Raster.at_iterate_frame {odd complete : Bool} {k n : Nat} (h : k + n + 1 = frameDots odd) :
    Raster.next^[n + 1] (Raster.at odd complete k) = Raster.at (!odd) true 0 := by
  rw [Function.iterate_succ_apply', Raster.at_iterate (by omega), Raster.at_next_last h]

/-- Settles O52: the raster of `ppuTick^[k] s` is that of `s` after `k` advances
(`ppuTick_iterate_raster`), and an advance counts the dots of a frame until its last. -/
theorem frameLength : Obligations.FrameLength := by
  intro s hline hdot
  have hstart : s.raster = Raster.at s.ppu.odd s.frameComplete 0 := by
    simp only [State.raster, hline, hdot]; rfl
  refine ⟨fun k hk => ?inside, ?end_⟩
  case inside =>
    have hk' := ppuTick_iterate_raster k s
    rw [hstart, Raster.at_iterate (by rw [Nat.zero_add]; exact hk), Nat.zero_add] at hk'
    exact ⟨congrArg Raster.scanline hk', congrArg Raster.dot hk', congrArg Raster.odd hk',
      congrArg Raster.complete hk'⟩
  case end_ =>
    have hlen : frameDots s.ppu.odd = frameDots s.ppu.odd - 1 + 1 := by cases s.ppu.odd <;> rfl
    have hend := ppuTick_iterate_raster (frameDots s.ppu.odd) s
    rw [hstart, hlen, Raster.at_iterate_frame (by omega), ← hlen] at hend
    exact ⟨congrArg Raster.scanline hend, congrArg Raster.dot hend, congrArg Raster.odd hend,
      congrArg Raster.complete hend⟩

/-! ### The frame sequencer -/

theorem Apu.tick_iterate_fourStep {u : Apu} (hfc : u.fc = 0) (hmode : u.mode = false) (k : Nat) :
    Apu.tick^[k] u = { u with
      fc := k % 29830
      frameIrq := u.frameIrq || (decide (29829 ≤ k) && !u.inhibit) } := by
  induction k with
  | zero =>
    have hflag : (u.frameIrq || (decide (29829 ≤ 0) && !u.inhibit)) = u.frameIrq := Bool.or_false _
    rw [Function.iterate_zero_apply, Nat.zero_mod, hflag, ← hfc]
  | succ k ih =>
    have hrise : decide (29829 ≤ k + 1) = (decide (29829 ≤ k) || decide (k % 29830 + 1 = 29829)) := by
      rw [← Bool.decide_or, decide_eq_decide]
      omega
    have hcount : (if k % 29830 + 1 = 29830 then 0 else k % 29830 + 1) = (k + 1) % 29830 := by
      split <;> omega
    rw [Function.iterate_succ_apply', ih, hrise, Bool.and_or_distrib_right, ← Bool.or_assoc, ← hcount]
    exact Apu.tick_fourStep hmode

theorem Apu.tick_iterate_fiveStep {u : Apu} (hfc : u.fc = 0) (hmode : u.mode = true) (k : Nat) :
    Apu.tick^[k] u = { u with fc := k % 37282 } := by
  induction k with
  | zero => rw [Function.iterate_zero_apply, Nat.zero_mod, ← hfc]
  | succ k ih =>
    have hcount : (if k % 37282 + 1 = 37282 then 0 else k % 37282 + 1) = (k + 1) % 37282 := by
      split <;> omega
    rw [Function.iterate_succ_apply', ih, ← hcount]
    exact Apu.tick_fiveStep hmode

/-- Settles O51: the sequencer after `k` ticks, by induction on them in each mode. -/
theorem apuFramePeriod : Obligations.ApuFramePeriod := by
  refine fun u k hfc => ⟨fun hmode => ?fourStep, fun hmode => ?fiveStep⟩
  case fourStep => rw [Apu.tick_iterate_fourStep hfc hmode]; exact ⟨rfl, rfl⟩
  case fiveStep => rw [Apu.tick_iterate_fiveStep hfc hmode]; exact ⟨rfl, rfl⟩

end Sys2Proof.Machine

/-! PROOFS for O55, O56 and O57: the invariant and the constants of a run (60_exceptions.md R280, R292;
10_state.md R29, R36). -/

namespace Sys2Proof.Machine

/-! ### The step as the instruction's parts and the device ticks -/

/-- What the CPU's part of a cycle can be (R250): a cycle of waiting, an interrupt entry, or one
instruction. -/
theorem cpuCycle_cases {s u : State} (h : cpuCycle s = .next u) :
    (0 < s.wait ∧ u = (s.setCyc (s.cyc + 1)).setWait (s.wait - 1)) ∨
    (∃ k b, u = serviceInterrupt k ((s.setCyc (s.cyc + 1)).setNmiPending b)) ∨
    (∃ i v, fetchInstr (s.setCyc (s.cyc + 1)) = .ok (i, v) ∧ exec i v = .next u) := by
  unfold cpuCycle at h
  split at h
  · cases h
    exact .inl ⟨‹_›, rfl⟩
  · unfold boundaryAction at h
    split at h
    · cases h
      exact .inr (.inl ⟨.nmi, false, rfl⟩)
    · split at h
      · cases h
        exact .inr (.inl ⟨.irq, s.nmiPending, rfl⟩)
      · unfold executeOne at h
        split at h
        · cases h
        · next i v hfetch => exact .inr (.inr ⟨i, v, hfetch, h⟩)

section
variable {R : State → State → Prop} (hR : AccessRelation R)
include hR

/-- A fetch is one, two or three reads. -/
theorem fetchInstr_rel {i : Instr} {s t : State} (h : fetchInstr s = .ok (i, t)) : R s t := by
  unfold fetchInstr at h
  split at h
  · cases h
  · next hop =>
    split at h
    · cases h; exact hR.read hop
    · split at h
      · cases h
      · next hlow => cases h; exact hR.trans (hR.read hop) (hR.read hlow)
    · split at h
      · cases h
      · next hlow =>
        split at h
        · cases h
        · next hhigh =>
          cases h
          exact hR.trans (hR.trans (hR.read hop) (hR.read hlow)) (hR.read hhigh)

/-- After the count of the cycle and the clearing of the latch, the CPU's part has the relation. -/
theorem cpuCycle_rel (hw : RelatesWrites R) {s u : State} (h : cpuCycle s = .next u) :
    ∃ b, R ((s.setCyc (s.cyc + 1)).setNmiPending b) u := by
  rcases cpuCycle_cases h with ⟨-, rfl⟩ | ⟨k, b, rfl⟩ | ⟨i, v, hfetch, hexec⟩
  · exact ⟨s.nmiPending, hR.cpu rfl⟩
  · exact ⟨b, hR.trans (interrupt_rel hR hw k _) (setWait_rel hR _ _)⟩
  · exact ⟨s.nmiPending, hR.trans (fetchInstr_rel hR hfetch) (exec_rel hR (fun _ => hw) hexec)⟩

end

theorem serviceInterrupt_dmaExtra (k : InterruptKind) (s : State) :
    (serviceInterrupt k s).dmaExtra = s.dmaExtra := by
  rw [serviceInterrupt, State.setWait_dmaExtra, interrupt_eq]

/-- The CPU's part of a cycle leaves no DMA stall uncharged (R29). -/
theorem cpuCycle_dmaExtra {s u : State} (h : cpuCycle s = .next u) (hs : s.dmaExtra = 0) :
    u.dmaExtra = 0 := by
  rcases cpuCycle_cases h with ⟨-, rfl⟩ | ⟨k, b, rfl⟩ | ⟨i, v, -, hexec⟩
  · exact hs
  · exact (serviceInterrupt_dmaExtra _ _).trans hs
  · exact exec_dmaExtra hexec

/-! ### The storage in form -/

/-- The parts of the storage's form, by name. -/
structure StorageForm (s : State) : Prop where
  ram : Memory.wf 0x800 s.ram = true
  ppu : s.ppu.wf = true
  frameBuf : Cells.wf frameSize s.frameBuf = true
  apu : s.apu.wf = true
  cart : s.cart.wf = true
  params : s.params.wf = true

theorem storageWf_iff {s : State} : s.storageWf = true ↔ StorageForm s := by
  simp only [State.storageWf, Bool.and_eq_true]
  exact ⟨fun ⟨⟨⟨⟨⟨h1, h2⟩, h3⟩, h4⟩, h5⟩, h6⟩ => ⟨h1, h2, h3, h4, h5, h6⟩,
    fun ⟨h1, h2, h3, h4, h5, h6⟩ => ⟨⟨⟨⟨⟨h1, h2⟩, h3⟩, h4⟩, h5⟩, h6⟩⟩

theorem storageForm_accessRelation : AccessRelation fun s t => StorageForm s → StorageForm t where
  trans h h' hs := h' (h hs)
  cpu h hs := by rw [h]; exact ⟨hs.ram, hs.ppu, hs.frameBuf, hs.apu, hs.cart, hs.params⟩
  read h hs := storageWf_iff.mp (memRead_wf h (storageWf_iff.mpr hs))

theorem storageForm_relatesWrites : RelatesWrites fun s t => StorageForm s → StorageForm t :=
  fun h hs => storageWf_iff.mp (memWrite_wf h (storageWf_iff.mpr hs))

/-! ### The device ticks keep the form -/

theorem drawPixels_wf {fb : Cells 24} (h : Cells.wf frameSize fb = true) (pixels : List (Nat × Pixel)) :
    Cells.wf frameSize (drawPixels fb pixels) = true := by
  induction pixels generalizing fb with
  | nil => exact h
  | cons e rest ih =>
    obtain ⟨i, c⟩ := e
    refine ih ?_
    split
    · exact Cells.wf_write h ‹_› c
    · exact h

theorem renderEvent_frameBuf_wf {s : State} (h : Cells.wf frameSize s.frameBuf = true) :
    Cells.wf frameSize (renderEvent s).frameBuf = true := by
  unfold renderEvent
  split
  · unfold renderDot
    dsimp only
    generalize Config.render _ _ = r
    rw [(notifyAtDot_same s).1]
    exact drawPixels_wf h r.pixels
  · exact h

theorem ppuTick_frameBuf_wf {s : State} (h : Cells.wf frameSize s.frameBuf = true) :
    Cells.wf frameSize (ppuTick s).frameBuf = true := by
  have hevents : (preRenderEvent (vblankEvent s)).frameBuf = s.frameBuf := by
    unfold preRenderEvent vblankEvent
    split <;> split <;> rfl
  rw [ppuTick_eq_advanceDot, advanceDot_same]
  exact renderEvent_frameBuf_wf (by rw [hevents]; exact h)

theorem rasterOk_iff {s : State} :
    s.ppu.rasterOk = true ↔
      s.raster.scanline < 262 ∧ s.raster.dot ≤ lastDot s.raster.scanline s.raster.odd := by
  simp only [Ppu.rasterOk, Bool.and_eq_true, decide_eq_true_eq]; rfl

/-- A dot leads from a position of the frame to a position of the frame (R280). -/
theorem ppuTick_rasterOk {s : State} (h : s.ppu.rasterOk = true) : (ppuTick s).ppu.rasterOk = true := by
  rw [rasterOk_iff] at h ⊢
  obtain ⟨hline, hdot⟩ := h
  rw [ppuTick_raster]
  by_cases hend : s.raster.dot = lastDot s.raster.scanline s.raster.odd
  · by_cases hlast : s.raster.scanline = 261
    · rw [Raster.next_newFrame hend hlast]
      exact ⟨Nat.succ_pos 261, Nat.zero_le _⟩
    · rw [Raster.next_newLine hend hlast]
      exact ⟨show s.raster.scanline + 1 < 262 by omega, Nat.zero_le _⟩
  · rw [Raster.next_sameLine hend]
    exact ⟨hline, Nat.lt_of_le_of_ne hdot hend⟩

/-- The PPU's form is that of its memories and its position. -/
theorem Ppu.wf_of_memories {p q : Ppu} (h : p.wf = true) (hvram : q.vram = p.vram) (hpal : q.pal = p.pal)
    (hoam : q.oam = p.oam) (hraster : q.rasterOk = true) : q.wf = true := by
  simp only [Ppu.wf, Bool.and_eq_true] at h ⊢
  rw [hvram, hpal, hoam]
  exact ⟨h.1, hraster⟩

theorem ppuTick_storageForm {s : State} (h : StorageForm s) : StorageForm (ppuTick s) := by
  have hframe := (ppuTick_frame s).same
  have hraster : s.ppu.rasterOk = true := by
    have hppu := h.ppu
    simp only [Ppu.wf, Bool.and_eq_true] at hppu
    exact hppu.2
  refine ⟨?_, Ppu.wf_of_memories h.ppu ?_ ?_ ?_ (ppuTick_rasterOk hraster),
    ppuTick_frameBuf_wf h.frameBuf, ?_, ?_, ?_⟩
  all_goals rw [hframe]
  · exact h.ram
  · exact h.apu
  · exact Cart.wf_regs h.cart _
  · exact h.params

theorem Apu.tick_wf {u : Apu} (h : u.wf = true) : u.tick.wf = true := by
  simp only [Apu.wf, decide_eq_true_eq] at h ⊢
  cases hmode : u.mode with
  | false =>
    rw [Apu.tick_fourStep hmode]
    simp only [hmode, Bool.false_eq_true, if_false] at h ⊢
    split <;> omega
  | true =>
    rw [Apu.tick_fiveStep hmode]
    simp only [hmode, if_true] at h ⊢
    split <;> omega

theorem deviceTicks_storageForm {s : State} (h : StorageForm s) : StorageForm (deviceTicks s) := by
  have hppu := ppuTick_storageForm (ppuTick_storageForm (ppuTick_storageForm h))
  exact ⟨hppu.ram, hppu.ppu, hppu.frameBuf, Apu.tick_wf hppu.apu, hppu.cart, hppu.params⟩

theorem ppuTick_dmaExtra (s : State) : (ppuTick s).dmaExtra = s.dmaExtra := by
  rw [(ppuTick_frame s).same]

theorem deviceTicks_dmaExtra (s : State) : (deviceTicks s).dmaExtra = s.dmaExtra := by
  rw [deviceTicks, apuTick, State.setApu_dmaExtra, ppuTick_dmaExtra, ppuTick_dmaExtra, ppuTick_dmaExtra]

theorem inv_iff {s : State} : s.Inv ↔ StorageForm s ∧ s.dmaExtra = 0 := by
  rw [State.Inv, State.wf, Bool.and_eq_true, storageWf_iff, decide_eq_true_eq]

/-- Settles O56: the parts of the CPU's cycle keep the form (`cpuCycle_rel`) and leave no stall, and so do
the device ticks. -/
theorem stepKeepsInv : Obligations.StepKeepsInv := by
  intro s t hs h
  obtain ⟨hform, hdma⟩ := inv_iff.mp hs
  obtain ⟨u, hcpu, rfl⟩ := step_next h
  obtain ⟨b, hrel⟩ := cpuCycle_rel storageForm_accessRelation storageForm_relatesWrites hcpu
  have hu : StorageForm u :=
    hrel ⟨hform.ram, hform.ppu, hform.frameBuf, hform.apu, hform.cart, hform.params⟩
  exact inv_iff.mpr ⟨deviceTicks_storageForm hu,
    (deviceTicks_dmaExtra u).trans (cpuCycle_dmaExtra hcpu hdma)⟩

/-! ### Reset -/

theorem resetVector_cart_wf {c : Cart} (h : c.wf = true) (openBus : Byte) :
    (resetVector openBus c).2.wf = true := by
  simp only [resetVector]
  rw [Cart.cpuRead_eq]
  refine Cart.wf_regs ?_ _
  rw [Cart.cpuRead_eq]
  exact Cart.wf_regs h _

theorem resetWith_inv {params : Params} {c : Cart} (hparams : params.wf = true) (hc : c.wf = true) :
    (State.resetWith params c).Inv :=
  have hppu : Ppu.reset.wf = true := by decide
  have hapu : Apu.reset.wf = true := by decide
  inv_iff.mpr ⟨⟨rfl, hppu, rfl, hapu, resetVector_cart_wf (Cart.wf_reset hc) _, hparams⟩, rfl⟩

/-- Settles O55: a reset empties the memories and puts the counters to 0, and the cartridge stays in form
through its reset and the two reads of the vector (`resetVector_cart_wf`). -/
theorem invAtReset : Obligations.InvAtReset :=
  ⟨resetWith_inv (by decide) (by decide), fun _ _ hparams hc => resetWith_inv hparams hc⟩

end Sys2Proof.Machine

/-! PROOFS for O7, O40 and O57: what an instruction and a step leave alone (10_state.md R28, R29, R36;
60_exceptions.md R250, R281, R300). -/

namespace Sys2Proof.Machine

open Spec (stepWith)

/-! ### What no instruction touches -/

/-- What is hidden from the program, and what it can reach only by a read or write with that very effect. -/
structure HiddenKept (s t : State) : Prop where
  devices : WriteFrame s t
  nmiPending : t.nmiPending = s.nmiPending
  cyc : t.cyc = s.cyc
  frameBuf : t.frameBuf = s.frameBuf
  frameComplete : t.frameComplete = s.frameComplete
  params : t.params = s.params

theorem HiddenKept.sameRom {s t : State} (h : HiddenKept s t) : SameRom s t :=
  ⟨h.devices.cart, h.devices.rom, h.params⟩

theorem SameButCpu.writeFrame {s t : State} (h : SameButCpu s t) : WriteFrame s t := by
  rw [h]
  exact ⟨rfl, rfl, rfl, rfl, rfl, id, rfl, rfl, rfl, fun _ => rfl⟩

theorem hiddenKept_accessRelation : AccessRelation HiddenKept where
  trans h h' := ⟨h.devices.trans h'.devices, h'.nmiPending.trans h.nmiPending, h'.cyc.trans h.cyc,
    h'.frameBuf.trans h.frameBuf, h'.frameComplete.trans h.frameComplete, h'.params.trans h.params⟩
  cpu h := ⟨h.writeFrame, by rw [h], by rw [h], by rw [h], by rw [h], by rw [h]⟩
  read h := by
    have hsame := memRead_same h
    exact ⟨(memRead_frame h).write, by rw [hsame], by rw [hsame], by rw [hsame], by rw [hsame],
      by rw [hsame]⟩

theorem hiddenKept_relatesWrites : RelatesWrites HiddenKept := fun h => by
  have hsame := memWrite_same h
  exact ⟨memWrite_frame h, by rw [hsame], by rw [hsame], by rw [hsame], by rw [hsame], by rw [hsame]⟩

/-- Settles O40: reads, writes and the CPU's own changes keep what is hidden, so every instruction does. -/
theorem hiddenStateFrame : Obligations.HiddenStateFrame := by
  intro i s t h
  have hkept := exec_rel hiddenKept_accessRelation (fun _ => hiddenKept_relatesWrites) h
  have hdev := hkept.devices
  exact ⟨hkept.nmiPending, hkept.cyc, exec_dmaExtra h, hdev.scanline, hdev.dot, hdev.odd, hdev.spr0,
    hdev.sprovf, hdev.vblank, hkept.frameBuf, hkept.frameComplete, hdev.pad0, hdev.pad1, hkept.sameRom⟩

/-! ### The device ticks of a cycle -/

theorem threeDots_frame (s : State) : TickFrame s (ppuTick (ppuTick (ppuTick s))) :=
  ((ppuTick_frame s).trans (ppuTick_frame _)).trans (ppuTick_frame _)

theorem deviceTicks_same (s : State) :
    let t := deviceTicks s
    t = { s with
      nmiPending := t.nmiPending
      ppu := { s.ppu with
        v := t.ppu.v, oamaddr := t.ppu.oamaddr, scanline := t.ppu.scanline, dot := t.ppu.dot,
        odd := t.ppu.odd, vblank := t.ppu.vblank, spr0 := t.ppu.spr0, sprovf := t.ppu.sprovf }
      frameBuf := t.frameBuf
      apu := { s.apu with frameIrq := t.apu.frameIrq, fc := t.apu.fc }
      cart := { s.cart with regs := t.cart.regs }
      frameComplete := t.frameComplete } := by
  have hdots := (threeDots_frame s).same
  have happly : (ppuTick (ppuTick (ppuTick s))).apu = s.apu := by rw [hdots]
  have hapu := (Apu.tick_same s.apu).1
  dsimp only
  unfold deviceTicks apuTick
  rw [happly]
  generalize ppuTick (ppuTick (ppuTick s)) = d at hdots ⊢
  rw [hdots, hapu]
  rfl

theorem sameRom_deviceTicks (s : State) : SameRom s (deviceTicks s) := by
  rw [deviceTicks_same]
  exact ⟨rfl, fun _ => rfl, rfl⟩

theorem SameRom.trans {s t u : State} (h : SameRom s t) (h' : SameRom t u) : SameRom s u := by
  obtain ⟨hcart, hrom, hparams⟩ := h
  obtain ⟨hcart', hrom', hparams'⟩ := h'
  refine ⟨by rw [hcart', hcart], fun hr => ?_, hparams'.trans hparams⟩
  exact (hrom' (by rw [hcart]; exact hr)).trans (hrom hr)

/-- Settles O57: the CPU's part keeps what is hidden after counting its cycle (`cpuCycle_rel`), and the
ticks keep the constants. -/
theorem stepKeepsConstants : Obligations.StepKeepsConstants := by
  intro s t h
  obtain ⟨u, hcpu, rfl⟩ := step_next h
  obtain ⟨b, hkept⟩ := cpuCycle_rel hiddenKept_accessRelation hiddenKept_relatesWrites hcpu
  have hticks := deviceTicks_same u
  have hpad0 : u.pads.pad0 = s.pads.pad0 := hkept.devices.pad0
  have hpad1 : u.pads.pad1 = s.pads.pad1 := hkept.devices.pad1
  have hcyc : u.cyc = s.cyc + 1 := hkept.cyc
  have hrom : SameRom s u := hkept.sameRom
  refine ⟨hrom.trans (sameRom_deviceTicks u), ?_, ?_, ?_⟩
  all_goals rw [hticks]
  · exact hpad0
  · exact hpad1
  · exact hcyc

/-! ### The sequencing of a cycle -/

theorem step_eq_stepWith (s : State) : step s = stepWith (cpuCycle s) := by
  unfold step clockCycle stepWith
  cases cpuCycle s <;> rfl

theorem cpuCycle_waiting {s : State} (h : 0 < s.wait) :
    cpuCycle s = .next ((s.setCyc (s.cyc + 1)).setWait (s.wait - 1)) := if_pos h

theorem cpuCycle_boundary {s : State} (h : s.wait = 0) :
    cpuCycle s = boundaryAction (s.setCyc (s.cyc + 1)) := if_neg (by omega)

theorem boundaryAction_nmi {s : State} (h : s.nmiPending = true) :
    boundaryAction s = .next (serviceInterrupt .nmi (s.setNmiPending false)) := if_pos h

theorem boundaryAction_irq {s : State} (hnmi : s.nmiPending = false) (hirq : s.irqPending = true)
    (hi : s.p.i = false) : boundaryAction s = .next (serviceInterrupt .irq s) := by
  rw [boundaryAction, if_neg (by simp [hnmi]), if_pos (by simp [hirq, hi])]

theorem boundaryAction_instruction {s : State} (hnmi : s.nmiPending = false)
    (h : (s.irqPending && !s.p.i) = false) : boundaryAction s = executeOne s := by
  rw [boundaryAction, if_neg (by simp [hnmi]), if_neg (by simp [h])]

theorem step_atInstruction {s : State} (h : s.AtInstruction) :
    step s = stepWith (executeOne { s with cyc := s.cyc + 1 }) := by
  obtain ⟨hwait, hnmi, hmasked⟩ := h
  rw [step_eq_stepWith, cpuCycle_boundary hwait,
    boundaryAction_instruction (s := s.setCyc (s.cyc + 1)) hnmi hmasked]
  rfl

/-! ### The sprite flags below the visible scanlines -/

theorem ppuTick_sprites_below {s : State} (h : 239 < s.ppu.scanline) :
    ((ppuTick s).ppu.spr0 = true → s.ppu.spr0 = true) ∧
      ((ppuTick s).ppu.sprovf = true → s.ppu.sprovf = true) := by
  obtain ⟨hspr0, hsprovf⟩ := ppuTick_sprites s
  refine ⟨fun ht => ?_, fun ht => ?_⟩
  · by_contra hs
    have := (hspr0 (Bool.eq_false_iff.mpr hs) ht).2
    omega
  · by_contra hs
    have := (hsprovf (Bool.eq_false_iff.mpr hs) ht).2
    omega

/-- A dot leads to a lower scanline only as the first dot of a frame. -/
theorem ppuTick_scanline (s : State) : s.ppu.scanline ≤ (ppuTick s).ppu.scanline ∨
    ((ppuTick s).ppu.scanline = 0 ∧ (ppuTick s).ppu.dot = 0) := by
  have hraster := ppuTick_raster s
  have hline : (ppuTick s).ppu.scanline = s.raster.next.scanline := congrArg Raster.scanline hraster
  have hdot : (ppuTick s).ppu.dot = s.raster.next.dot := congrArg Raster.dot hraster
  rw [hline, hdot]
  by_cases hend : s.raster.dot = lastDot s.raster.scanline s.raster.odd
  · by_cases hlast : s.raster.scanline = 261
    · rw [Raster.next_newFrame hend hlast]; exact .inr ⟨rfl, rfl⟩
    · rw [Raster.next_newLine hend hlast]; exact .inl (Nat.le_succ _)
  · rw [Raster.next_sameLine hend]; exact .inl (Nat.le_refl _)

/-- Three dots that begin and end below the visible scanlines pass none of them, so no flag rises. -/
theorem threeDots_sprites_below {s : State} (h : 239 < s.ppu.scanline)
    (h' : 239 < (ppuTick (ppuTick (ppuTick s))).ppu.scanline) :
    ((ppuTick (ppuTick (ppuTick s))).ppu.spr0 = true → s.ppu.spr0 = true) ∧
      ((ppuTick (ppuTick (ppuTick s))).ppu.sprovf = true → s.ppu.sprovf = true) := by
  have hline1 := ppuTick_scanline s
  have hline2 := ppuTick_scanline (ppuTick s)
  have hpos2 := ppuTick_position (ppuTick s)
  have hpos3 := ppuTick_position (ppuTick (ppuTick s))
  obtain ⟨ha0, ha1⟩ := ppuTick_sprites_below h
  obtain ⟨hb0, hb1⟩ := ppuTick_sprites_below (s := ppuTick s) (by omega)
  obtain ⟨hc0, hc1⟩ := ppuTick_sprites_below (s := ppuTick (ppuTick s)) (by omega)
  exact ⟨fun ht => ha0 (hb0 (hc0 ht)), fun ht => ha1 (hb1 (hc1 ht))⟩

/-- Settles O7: the four kinds of cycle are the branches of `cpuCycle`; the ticks have the frame of
their dots (`deviceTicks_same`, `threeDots_frame`) and of the APU's tick. -/
theorem cpuCycleSequencing : Obligations.CpuCycleSequencing := by
  refine ⟨fun s hwait => ?wait, fun s hwait hnmi => ?nmi, fun s hwait hnmi hirq hi => ?irq,
    fun s hwait hnmi hirq => ?instruction, fun s => ?frame, fun s hoff => ?idle,
    fun s => threeDots_sprites_below⟩
  case wait => rw [step_eq_stepWith, cpuCycle_waiting hwait]; rfl
  case nmi =>
    rw [step_eq_stepWith, cpuCycle_boundary hwait, boundaryAction_nmi (s := s.setCyc (s.cyc + 1)) hnmi]
    rfl
  case irq =>
    rw [step_eq_stepWith, cpuCycle_boundary hwait,
      boundaryAction_irq (s := s.setCyc (s.cyc + 1)) hnmi hirq hi]
    rfl
  case instruction =>
    have hmasked : (s.irqPending && !s.p.i) = false := by
      rcases hirq with h | h
      · rw [State.irqPending, h]; rfl
      · rw [h, Bool.not_true, Bool.and_false]
    exact step_atInstruction ⟨hwait, hnmi, hmasked⟩
  case frame =>
    have hdots := threeDots_frame s
    have happly : (ppuTick (ppuTick (ppuTick s))).apu = s.apu := by rw [hdots.same]
    refine ⟨deviceTicks_same s, hdots.nmi, fun hirq => ?_, hdots.complete, hdots.nrom⟩
    rw [deviceTicks, apuTick, State.setApu_apu, happly]
    exact (Apu.tick_same s.apu).2 hirq
  case idle => exact (threeDots_frame s).idle hoff

end Sys2Proof.Machine

/-! PROOFS for O6, O9, O10 and O53: what a step answers (60_exceptions.md R278, R300, R301; 30_encoding.md
R111). -/

namespace Sys2Proof.Machine

open Spec (memMode readMode modMode stepWith)

/-! ### The one refusal -/

/-- A refused outcome has the one cause (R278), and the instruction has an operand at a device address. -/
def RefusedOnlyAt (mode : Option MemMode) (s : State) (o : Host.Outcome State Fault Refusal) : Prop :=
  ∀ r, o = .refused r → (r = .ppuDataWhileRendering ∧ s.ppu.rendering = true) ∧
    ∃ m, mode = some m ∧ ¬ plainAddr (effAddr m s)

theorem RefusedOnlyAt.next (mode : Option MemMode) (s t : State) : RefusedOnlyAt mode s (.next t) :=
  fun _ h => nomatch h

/-- A write to a plain address is never refused. -/
theorem memWrite_plain {a : Word} (ha : plainAddr a) (v : Byte) (s : State) :
    ∃ t, memWrite a v s = .ok t := by
  rcases ha with ha | ha
  · exact ⟨_, memWrite_ram v ha⟩
  · exact ⟨_, by rw [memWrite, if_neg (by omega), if_neg (by omega), if_neg (by omega)]⟩

theorem memWrite_error_not_plain {a : Word} {v : Byte} {s : State} {r : Refusal}
    (h : memWrite a v s = .error r) : ¬ plainAddr a := fun ha => by
  obtain ⟨t, ht⟩ := memWrite_plain ha v s
  rw [ht] at h
  cases h

theorem memRead_error_not_plain {a : Word} {s : State} {r : Refusal} (h : memRead a s = .error r) :
    ¬ plainAddr a := by
  obtain ⟨-, -, hlo, hhi, -⟩ := memRead_error h
  unfold plainAddr
  omega

theorem memRead_cause {a : Word} {s : State} {r : Refusal} (h : memRead a s = .error r) :
    r = .ppuDataWhileRendering ∧ s.ppu.rendering = true :=
  ⟨(memRead_error h).1, (memRead_error h).2.1⟩

theorem readInstr_refused (o : ReadOperand) (f : Byte → State → State) (s : State) :
    RefusedOnlyAt (readMode o) s (readInstr o f s) := by
  intro r h
  unfold readInstr at h
  split at h
  · next r' hload =>
    cases h
    cases o with
    | imm b => cases hload
    | mem m => exact ⟨memRead_cause hload, m, rfl, memRead_error_not_plain hload⟩
  · cases h

theorem storeInstr_refused (m : MemMode) (v : Byte) (s : State) :
    RefusedOnlyAt (some m) s (storeInstr m v s) := by
  intro r h
  unfold storeInstr at h
  split at h
  · next r' hwrite =>
    cases h
    exact ⟨memWrite_error hwrite, m, rfl, memWrite_error_not_plain hwrite⟩
  · cases h

theorem modifyInstr_refused (o : ModOperand) (n : Nat) (f : Byte → Flags → Byte × Flags) (s : State) :
    RefusedOnlyAt (modMode o) s (modifyInstr o n f s) := by
  cases o with
  | acc => exact .next _ _ _
  | mem m =>
    intro r h
    unfold modifyInstr at h
    split at h
    · next r' hread =>
      cases h
      exact ⟨memRead_cause hread, m, rfl, memRead_error_not_plain hread⟩
    · next b u hread =>
      split at h
      · next r' hwrite =>
        cases h
        obtain ⟨hreason, hrendering⟩ := memWrite_error hwrite
        exact ⟨⟨hreason, memRead_rendering hread ▸ hrendering⟩, m, rfl, memWrite_error_not_plain hwrite⟩
      · cases h

theorem branchInstr_refused (mode : Option MemMode) (cond : Bool) (off : Byte) (s : State) :
    RefusedOnlyAt mode s (branchInstr cond off s) := by
  cases cond <;> exact .next _ _ _

/-- Every instruction but JMP indirect, whose pointer is no operand of R137. -/
theorem exec_refused (i : Instr) (s : State) (hi : ∀ w, i ≠ .jmp (.ind w)) :
    RefusedOnlyAt (memMode i) s (exec i s) := by
  cases i with
  | lda | ldx | ldy | adc | sbc | and | ora | eor | cmp | cpx | cpy | bit =>
    exact readInstr_refused _ _ s
  | sta | stx | sty => exact storeInstr_refused _ _ s
  | inc | dec | asl | lsr | rol | ror => exact modifyInstr_refused _ _ _ s
  | bcc | bcs | beq | bne | bmi | bpl | bvc | bvs => exact branchInstr_refused _ _ _ s
  | jmp m =>
    cases m with
    | abs w => exact .next _ _ _
    | ind w => exact absurd rfl (hi w)
  | _ => exact .next _ _ _

theorem readPointer_cause {ptr : Word} {s : State} {r : Refusal} (h : readPointer ptr s = .error r) :
    r = .ppuDataWhileRendering ∧ s.ppu.rendering = true := by
  unfold readPointer at h
  split at h
  · next hlow => cases h; exact memRead_cause hlow
  · next hlow =>
    split at h
    · next hhigh =>
      cases h
      obtain ⟨hreason, hrendering⟩ := memRead_cause hhigh
      exact ⟨hreason, memRead_rendering hlow ▸ hrendering⟩
    · cases h

theorem exec_cause {i : Instr} {s : State} {r : Refusal} (h : exec i s = .refused r) :
    r = .ppuDataWhileRendering ∧ s.ppu.rendering = true := by
  by_cases hi : ∃ w, i = .jmp (.ind w)
  · obtain ⟨w, rfl⟩ := hi
    simp only [exec, execJmp] at h
    split at h
    · next hptr => cases h; exact readPointer_cause hptr
    · cases h
  · exact (exec_refused i s (fun w hw => hi ⟨w, hw⟩) r h).1

/-! ### The refusal of a step -/

theorem rendering_accessRelation : AccessRelation fun s t => t.ppu.rendering = s.ppu.rendering where
  trans h h' := h'.trans h
  cpu h := by rw [h]
  read h := memRead_rendering h

theorem fetchInstr_cause {s : State} {r : Refusal} (h : fetchInstr s = .error r) :
    r = .ppuDataWhileRendering ∧ s.ppu.rendering = true := by
  unfold fetchInstr at h
  split at h
  · next hop => cases h; exact memRead_cause hop
  · next op u hop =>
    have hu := memRead_rendering hop
    split at h
    · cases h
    · split at h
      · next hlow => cases h; exact hu ▸ memRead_cause hlow
      · cases h
    · split at h
      · next hlow => cases h; exact hu ▸ memRead_cause hlow
      · next b u' hlow =>
        have hu' := memRead_rendering hlow
        split at h
        · next hhigh => cases h; exact hu ▸ hu' ▸ memRead_cause hhigh
        · cases h

theorem executeOne_cause {s : State} {r : Refusal} (h : executeOne s = .refused r) :
    r = .ppuDataWhileRendering ∧ s.ppu.rendering = true := by
  unfold executeOne at h
  split at h
  · next hfetch => cases h; exact fetchInstr_cause hfetch
  · next i u hfetch =>
    exact fetchInstr_rel rendering_accessRelation hfetch ▸ exec_cause h

/-- A refused step is that of an instruction: it is at a boundary, and no NMI is latched. -/
theorem step_cause {s : State} {r : Refusal} (h : step s = .refused r) :
    r = .ppuDataWhileRendering ∧ s.ppu.rendering = true ∧ s.wait = 0 ∧ s.nmiPending = false := by
  have hcpu : cpuCycle s = .refused r := by
    rw [step_eq_stepWith] at h
    cases hcycle : cpuCycle s <;> rw [hcycle] at h <;> cases h
    rfl
  unfold cpuCycle at hcpu
  split at hcpu
  · cases hcpu
  · next hwait =>
    unfold boundaryAction at hcpu
    split at hcpu
    · cases hcpu
    · next hnmi =>
      split at hcpu
      · cases hcpu
      · obtain ⟨hreason, hrendering⟩ := executeOne_cause hcpu
        exact ⟨hreason, hrendering, Nat.eq_zero_of_not_pos hwait, Bool.eq_false_iff.mpr hnmi⟩

/-- The machine has no fault (R13), so an outcome that is never refused is a next state. -/
theorem exists_next_of_not_refused {o : Host.Outcome State Fault Refusal} (h : ∀ r, o ≠ .refused r) :
    ∃ t, o = .next t := by
  cases o with
  | next t => exact ⟨t, rfl⟩
  | fault f => cases f
  | refused r => exact absurd rfl (h r)

/-- Settles O9: a refusal needs a PPU that is rendering (`exec_cause`, `step_cause`). -/
theorem completesOutsideRendering : Obligations.CompletesOutsideRendering := by
  intro s hs
  refine ⟨fun i => exists_next_of_not_refused fun r h => ?_,
    exists_next_of_not_refused fun r h => ?_⟩
  · exact Bool.false_ne_true (hs.symm.trans (exec_cause h).2)
  · exact Bool.false_ne_true (hs.symm.trans (step_cause h).2.1)

/-- Settles O10: the cause of a refusal, and that an operand at a plain address has none
(`exec_refused`). -/
theorem refusalOnlyWhileRendering : Obligations.RefusalOnlyWhileRendering := by
  refine ⟨fun i s r h => exec_cause h, fun s r h => step_cause h, fun i s hplain hi =>
    exists_next_of_not_refused fun r h => ?_⟩
  obtain ⟨-, m, hm, hdevice⟩ := exec_refused i s hi r h
  rw [hm, Option.all_some, decide_eq_true_eq] at hplain
  exact hdevice hplain

/-! ### The step at an instruction -/

/-- The fetch takes from the bus the bytes that the decoder takes from a list (R103, R111). -/
theorem fetchInstr_decoded {s u0 u1 u2 : State} {b0 b1 b2 : Byte} {i : Instr} {rest : List Byte}
    (h0 : memRead s.pc s = .ok (b0, u0)) (h1 : memRead (s.pc + 1#16) u0 = .ok (b1, u1))
    (h2 : memRead (s.pc + 2#16) u1 = .ok (b2, u2)) (h : decode [b0, b1, b2] = .ok (i, rest)) :
    fetchInstr s = .ok (i, if i.length = 1 then u0 else if i.length = 2 then u1 else u2) := by
  have hrow := opcodeRow_fieldIsBytes b0
  unfold fetchInstr
  rw [h0]
  dsimp only
  cases hb0 : opcodeRow b0 with
  | f1 j =>
    rw [hb0] at hrow
    rw [decode_f1 hb0] at h
    cases h
    have hlen : i.length = 1 := by rw [Instr.length, show i.operandBytes = [] from hrow]; rfl
    rw [if_pos hlen]
  | f2 g =>
    rw [hb0] at hrow
    rw [decode_f2 hb0] at h
    cases h
    have hlen : (g b1).length = 2 := by rw [Instr.length, show (g b1).operandBytes = [b1] from hrow b1]; rfl
    rw [h1, if_neg (by omega), if_pos hlen]
  | f3 g =>
    rw [hb0] at hrow
    rw [decode_f3 hb0] at h
    cases h
    have hlen : (g (word b2 b1)).length = 3 := by
      rw [Instr.length, show (g (word b2 b1)).operandBytes = _ from hrow _]; rfl
    rw [h1]
    dsimp only
    rw [h2, if_neg (by omega), if_neg (by omega)]

theorem executeOne_of_fetch {s u : State} {i : Instr} (h : fetchInstr s = .ok (i, u)) :
    executeOne s = exec i u := by
  simp only [executeOne, h]

/-- A plain address shows its RAM cell or the cartridge's constants: the same in two states that agree in
those (R61, R82). -/
theorem peek_plain_congr {s t : State} (hn : s.Nrom) (hrom : SameRom s t) {a : Word} (ha : plainAddr a)
    (hram : a.toNat < 0x2000 → t.ram.read (a.toNat % 0x800) = s.ram.read (a.toNat % 0x800)) :
    peek t a = peek s a := by
  obtain ⟨hcart, -, hparams⟩ := hrom
  rcases ha with ha | ha
  · simp only [peek, memRead_ram ha, hram ha]
  · have hn' : t.Nrom := by rw [State.Nrom, hcart]; exact hn
    simp only [peek, memRead_cart_nrom hn ha, memRead_cart_nrom hn' ha, Cart.prgOffset]
    rw [hcart, hparams]

/-- A read at a plain address is what `peek` shows, and changes nothing. -/
theorem memRead_of_peek {s : State} {a : Word} {b : Byte} (hn : s.Nrom) (ha : plainAddr a)
    (hb : peek s a = some b) : memRead a s = .ok (b, s) := by
  obtain ⟨b', hread, hpeek⟩ := memRead_plain hn ha
  obtain rfl : b = b' := Option.some.inj (hb.symm.trans hpeek)
  exact hread

theorem peek_setCyc {s : State} {a : Word} (hn : s.Nrom) (ha : plainAddr a) (n : Nat) :
    peek (s.setCyc n) a = peek s a :=
  peek_plain_congr (t := s.setCyc n) hn ⟨rfl, fun _ => rfl, rfl⟩ ha fun _ => rfl

/-- Settles O6: the step at an instruction is `step_atInstruction`, and the fetch gives what the decoder
gives (`fetchInstr_decoded`). -/
theorem stepRunsDecodedInstruction : Obligations.StepRunsDecodedInstruction := by
  refine ⟨fun s b0 b1 b2 i rest hat hn ha0 ha1 ha2 hb0 hb1 hb2 h => ?plain, fun s hat => ?fetch,
    fun s u0 u1 u2 b0 b1 b2 i rest h0 h1 h2 h => fetchInstr_decoded h0 h1 h2 h⟩
  case plain =>
    have hread : ∀ a b, plainAddr a → peek s a = some b →
        memRead a (s.setCyc (s.cyc + 1)) = .ok (b, s.setCyc (s.cyc + 1)) := fun a b ha hb =>
      memRead_of_peek (s := s.setCyc _) hn ha ((peek_setCyc hn ha _).trans hb)
    have hfetch := fetchInstr_decoded (s := s.setCyc (s.cyc + 1)) (hread _ _ ha0 hb0) (hread _ _ ha1 hb1)
      (hread _ _ ha2 hb2) h
    rw [ite_self, ite_self] at hfetch
    rw [step_atInstruction hat]
    exact congrArg stepWith (executeOne_of_fetch hfetch)
  case fetch =>
    rw [step_atInstruction hat, executeOne]
    cases fetchInstr { s with cyc := s.cyc + 1 } <;> rfl

/-! ### A frame -/

theorem deviceTicks_raster (s : State) : (deviceTicks s).raster = Raster.next^[3] s.raster :=
  ppuTick_iterate_raster 3 s

/-- What a step does to a frame: three dots of the raster, one cycle, and the buttons stay. -/
structure FrameStep (s t : State) : Prop where
  raster : t.raster = Raster.next^[3] s.raster
  cyc : t.cyc = s.cyc + 1
  pad0 : t.pads.pad0 = s.pads.pad0
  pad1 : t.pads.pad1 = s.pads.pad1

theorem step_frameStep {s t : State} (h : step s = .next t) : FrameStep s t := by
  obtain ⟨-, hpad0, hpad1, hcyc⟩ := stepKeepsConstants s t h
  obtain ⟨u, hcpu, rfl⟩ := step_next h
  obtain ⟨b, hkept⟩ := cpuCycle_rel hiddenKept_accessRelation hiddenKept_relatesWrites hcpu
  have hu : u.raster = s.raster := by
    rw [State.raster, hkept.devices.scanline, hkept.devices.dot, hkept.devices.odd, hkept.frameComplete]
    rfl
  exact ⟨by rw [deviceTicks_raster, hu], hcyc, hpad0, hpad1⟩

/-- The number of steps, three dots each, that complete a frame of which `n` dots remain. -/
def stepsLeft (n : Nat) : Nat := (n + 2) / 3

/-- The end of a frame begun in `s` with `n` dots left. -/
structure FrameEnd (s : State) (odd : Bool) (n : Nat) (t : State) : Prop where
  raster : t.raster = Raster.at (!odd) true (3 * stepsLeft n - n)
  cyc : t.cyc = s.cyc + stepsLeft n
  pad0 : t.pads.pad0 = s.pads.pad0
  pad1 : t.pads.pad1 = s.pads.pad1

/-- A step with more than three dots left does not end the frame. -/
theorem Raster.at_step {odd : Bool} {k : Nat} (h : k + 3 < frameDots odd) :
    Raster.next^[3] (Raster.at odd false k) = Raster.at odd false (k + 3) := Raster.at_iterate h

/-- A step with at most three dots left ends the frame, and goes on for the dots it has over. -/
theorem Raster.at_step_end {odd : Bool} {k : Nat} (hk : k < frameDots odd) (h : frameDots odd ≤ k + 3) :
    Raster.next^[3] (Raster.at odd false k) = Raster.at (!odd) true (k + 3 - frameDots odd) := by
  obtain ⟨n, hn⟩ : ∃ n, k + n + 1 = frameDots odd := ⟨frameDots odd - k - 1, by omega⟩
  have hdots : 3 ≤ frameDots (!odd) := by cases odd <;> decide
  rw [show 3 = (k + 3 - frameDots odd) + (n + 1) by omega, Function.iterate_add_apply,
    Raster.at_iterate_frame hn, Raster.at_iterate (by omega), Nat.zero_add]
  congr 1
  omega

/-- Unless it is refused, the loop of R301 ends the frame, if it may take the steps that are left. -/
theorem runFrame_completes (n : Nat) {s : State} {odd : Bool} {k : Nat}
    (hs : s.raster = Raster.at odd false k) (hk : k < frameDots odd) (hn : frameDots odd ≤ k + 3 * n) :
    runFrame n s = .refused .ppuDataWhileRendering ∨
      ∃ t, runFrame n s = .next t ∧ FrameEnd s odd (frameDots odd - k) t := by
  induction n generalizing s k with
  | zero => omega
  | succ n ih =>
    rw [runFrame]
    cases hstep : step s with
    | fault f => cases f
    | refused r => exact .inl (by rw [(step_cause hstep).1])
    | next t =>
      obtain ⟨hraster, hcyc, hpad0, hpad1⟩ := step_frameStep hstep
      rw [hs] at hraster
      dsimp only
      by_cases hlast : frameDots odd ≤ k + 3
      · rw [Raster.at_step_end hk hlast] at hraster
        have hcomplete : t.frameComplete = true := congrArg Raster.complete hraster
        have hleft : stepsLeft (frameDots odd - k) = 1 := by rw [stepsLeft]; omega
        refine .inr ⟨t, if_pos hcomplete, ?_, by rw [hleft, hcyc], hpad0, hpad1⟩
        rw [hraster, hleft]
        congr 1
        omega
      · rw [Raster.at_step (by omega)] at hraster
        have hcomplete : t.frameComplete = false := congrArg Raster.complete hraster
        rw [if_neg (by rw [hcomplete]; exact Bool.false_ne_true)]
        refine (ih hraster (by omega) (by omega)).imp_right fun ⟨u, hu, hend⟩ => ⟨u, hu, ?_⟩
        have hleft : stepsLeft (frameDots odd - k) = stepsLeft (frameDots odd - (k + 3)) + 1 := by
          simp only [stepsLeft]; omega
        refine ⟨?_, by rw [hend.cyc, hcyc, hleft]; omega, hend.pad0.trans hpad0, hend.pad1.trans hpad1⟩
        rw [hend.raster, hleft]
        congr 1
        omega

/-- `StepFrame` from the dot of number `k` of a frame, with the buttons supplied. -/
theorem stepFrame_completes (c0 c1 : Byte) {s : State} {k : Nat} (hline : s.ppu.scanline = k / 341)
    (hdot : s.ppu.dot = k % 341) (hk : k < frameDots s.ppu.odd) :
    stepFrame c0 c1 s = .refused .ppuDataWhileRendering ∨
      ∃ t, stepFrame c0 c1 s = .next t ∧
        FrameEnd (beginFrame c0 c1 s) s.ppu.odd (frameDots s.ppu.odd - k) t := by
  have hbegin : (beginFrame c0 c1 s).raster = Raster.at s.ppu.odd false k := by
    rw [Raster.at, ← hline, ← hdot]; rfl
  have hlen : frameDots s.ppu.odd ≤ 3 * frameCycles := by cases s.ppu.odd <;> decide
  exact runFrame_completes frameCycles hbegin hk (by omega)

/-- Settles O53: a frame of `n` dots left takes `stepsLeft n` cycles and goes `3 * stepsLeft n - n` dots
into the next (`stepFrame_completes`). -/
theorem frameCycleCounts : Obligations.FrameCycleCounts := by
  refine ⟨fun c0 c1 s hline hdot hodd => ?even, fun c0 c1 s hline hdot hodd => ?odd,
    fun c0 c1 s hraster => ?any⟩
  case even =>
    have hrun := stepFrame_completes c0 c1 (k := 0) hline hdot (by rw [hodd]; decide)
    rw [hodd] at hrun
    refine hrun.imp_right fun ⟨t, ht, hend⟩ => ⟨t, ht, ?_⟩
    exact ⟨congrArg Raster.complete hend.raster, hend.cyc, congrArg Raster.scanline hend.raster,
      congrArg Raster.dot hend.raster, congrArg Raster.odd hend.raster, hend.pad0, hend.pad1⟩
  case odd =>
    have hrun := stepFrame_completes c0 c1 (k := 1) hline hdot (by rw [hodd]; decide)
    rw [hodd] at hrun
    refine hrun.imp_right fun ⟨t, ht, hend⟩ => ⟨t, ht, ?_⟩
    exact ⟨congrArg Raster.complete hend.raster, hend.cyc, congrArg Raster.scanline hend.raster,
      congrArg Raster.dot hend.raster, congrArg Raster.odd hend.raster⟩
  case any =>
    obtain ⟨hline, hdot⟩ := rasterOk_iff.mp hraster
    obtain ⟨hat, hk⟩ := Raster.eq_at hline hdot
    have hrun := stepFrame_completes c0 c1 (congrArg Raster.scanline hat) (congrArg Raster.dot hat) hk
    refine hrun.imp_right fun ⟨t, ht, hend⟩ => ⟨t, ht, congrArg Raster.complete hend.raster, ?_⟩
    have hcyc : t.cyc = s.cyc + _ := hend.cyc
    have hlen : frameDots s.ppu.odd ≤ 89342 := by cases s.ppu.odd <;> decide
    rw [hcyc, stepsLeft]
    omega

end Sys2Proof.Machine

/-! PROOFS for O38 and O39: the flags and registers that each instruction writes (10_state.md R21 to R26). -/

namespace Sys2Proof.Machine

open Spec (mnemonic memMode writesA writesC writesS writesZN transfers)

/-! ### The flags (R26) -/

/-- Each flag is kept, or the table of R26 lists the instruction of that name for it. -/
structure FlagsByTable (name : String) (f g : Flags) : Prop where
  c : g.c = f.c ∨ name ∈ writesC
  zn : (g.z = f.z ∧ g.n = f.n) ∨ name ∈ writesZN
  i : g.i = f.i ∨ name ∈ ["SEI", "CLI", "PLP", "RTI", "BRK"]
  d : g.d = f.d ∨ name ∈ ["SED", "CLD", "PLP", "RTI"]
  v : g.v = f.v ∨ name ∈ ["ADC", "SBC", "BIT", "CLV", "PLP", "RTI"]
  brk : name ≠ "BRK" ∨ g.i = true

/-- A next state among the outcomes has its flags by the table. -/
def OutcomeFlags (name : String) (s : State) (o : Host.Outcome State Fault Refusal) : Prop :=
  ∀ t, o = .next t → FlagsByTable name s.p t.p

theorem OutcomeFlags.next {name : String} {s t : State} (h : FlagsByTable name s.p t.p) :
    OutcomeFlags name s (.next t) := fun _ ht => by cases ht; exact h

theorem FlagsByTable.kept {name : String} (f : Flags) (h : name ≠ "BRK") : FlagsByTable name f f :=
  ⟨.inl rfl, .inl ⟨rfl, rfl⟩, .inl rfl, .inl rfl, .inl rfl, .inl h⟩

theorem loadOperand_same {o : ReadOperand} {s t : State} {b : Byte} (h : loadOperand o s = .ok (b, t)) :
    SameButDevices s t := by
  cases o with
  | imm c => cases h; rfl
  | mem m => exact memRead_same h

theorem readPointer_same {ptr w : Word} {s t : State} (h : readPointer ptr s = .ok (w, t)) :
    SameButDevices s t := by
  unfold readPointer at h
  split at h
  · cases h
  · next hlow =>
    split at h
    · cases h
    · next hhigh => cases h; exact (memRead_same hlow).trans (memRead_same hhigh)

theorem loadTarget_same {o : ModOperand} {s t : State} {b : Byte} (h : loadTarget o s = .ok (b, t)) :
    SameButDevices s t := by
  cases o with
  | acc => cases h; rfl
  | mem m => exact memRead_same h

section
variable {name : String}

theorem readInstr_flags (o : ReadOperand) {f : Byte → State → State}
    (hf : ∀ b u, FlagsByTable name u.p (f b u).p) (s : State) : OutcomeFlags name s (readInstr o f s) := by
  intro t h
  obtain ⟨b, u, hload, rfl⟩ := readInstr_cases h
  rw [finish_eq, ← (loadOperand_same hload).p]
  exact hf b u

theorem storeInstr_flags (m : MemMode) (v : Byte) (hname : name ≠ "BRK") (s : State) :
    OutcomeFlags name s (storeInstr m v s) := by
  intro t h
  obtain ⟨u, hwrite, rfl⟩ := storeInstr_cases h
  rw [finish_eq, memWrite_same hwrite]
  exact .kept s.p hname

theorem modifyInstr_flags (o : ModOperand) (n : Nat) {f : Byte → Flags → Byte × Flags}
    (hf : ∀ b p, FlagsByTable name p (f b p).2) (s : State) :
    OutcomeFlags name s (modifyInstr o n f s) := by
  intro t h
  obtain ⟨b, u, w, hload, -, rfl⟩ := modifyInstr_cases h
  rw [finish_eq, ← (loadTarget_same hload).p]
  exact hf b u.p

theorem branchInstr_flags (cond : Bool) (off : Byte) (hname : name ≠ "BRK") (s : State) :
    OutcomeFlags name s (branchInstr cond off s) := by
  cases cond <;> exact .next (.kept s.p hname)

theorem execJmp_flags (m : JmpForm) (hname : name ≠ "BRK") (s : State) :
    OutcomeFlags name s (execJmp m s) := by
  cases m with
  | abs w => exact .next (.kept s.p hname)
  | ind ptr =>
    simp only [execJmp]
    split
    · exact fun _ h => nomatch h
    · next hread =>
      refine .next ?_
      rw [charge_eq, State.setPc_p, (readPointer_same hread).p]
      exact .kept s.p hname

end

/-- The row of each instruction: which flags it keeps, and which the table lists it for. -/
theorem exec_flags (i : Instr) (s : State) : OutcomeFlags (mnemonic i) s (exec i s) := by
  cases i with
  | lda | ldx | ldy | and | ora | eor =>
    refine readInstr_flags _ ?_ s
    exact fun _ _ => ⟨.inl rfl, .inr (by simp [mnemonic, writesZN]), .inl rfl, .inl rfl, .inl rfl,
      .inl (by simp [mnemonic])⟩
  | adc | sbc =>
    refine readInstr_flags _ ?_ s
    exact fun _ _ => ⟨.inr (by simp [mnemonic, writesC]), .inr (by simp [mnemonic, writesZN]), .inl rfl,
      .inl rfl, .inr (by simp [mnemonic]), .inl (by simp [mnemonic])⟩
  | cmp | cpx | cpy =>
    refine readInstr_flags _ ?_ s
    exact fun _ _ => ⟨.inr (by simp [mnemonic, writesC]), .inr (by simp [mnemonic, writesZN]), .inl rfl,
      .inl rfl, .inl rfl, .inl (by simp [mnemonic])⟩
  | bit =>
    refine readInstr_flags _ ?_ s
    exact fun _ _ => ⟨.inl rfl, .inr (by simp [mnemonic, writesZN]), .inl rfl, .inl rfl,
      .inr (by simp [mnemonic]), .inl (by simp [mnemonic])⟩
  | sta | stx | sty => exact storeInstr_flags _ _ (by simp [mnemonic]) s
  | inc | dec =>
    refine modifyInstr_flags _ _ ?_ s
    exact fun _ _ => ⟨.inl rfl, .inr (by simp [mnemonic, writesZN]), .inl rfl, .inl rfl, .inl rfl,
      .inl (by simp [mnemonic])⟩
  | asl | lsr | rol | ror =>
    refine modifyInstr_flags _ _ ?_ s
    exact fun _ _ => ⟨.inr (by simp [mnemonic, writesC]), .inr (by simp [mnemonic, writesZN]), .inl rfl,
      .inl rfl, .inl rfl, .inl (by simp [mnemonic])⟩
  | tax | tay | txa | tya | tsx | inx | iny | dex | dey | pla =>
    exact .next ⟨.inl rfl, .inr (by simp [mnemonic, writesZN]), .inl rfl, .inl rfl, .inl rfl,
      .inl (by simp [mnemonic])⟩
  | clc | sec =>
    exact .next ⟨.inr (by simp [mnemonic, writesC]), .inl ⟨rfl, rfl⟩, .inl rfl, .inl rfl, .inl rfl,
      .inl (by simp [mnemonic])⟩
  | cli | sei =>
    exact .next ⟨.inl rfl, .inl ⟨rfl, rfl⟩, .inr (by simp [mnemonic]), .inl rfl, .inl rfl,
      .inl (by simp [mnemonic])⟩
  | cld | sed =>
    exact .next ⟨.inl rfl, .inl ⟨rfl, rfl⟩, .inl rfl, .inr (by simp [mnemonic]), .inl rfl,
      .inl (by simp [mnemonic])⟩
  | clv =>
    exact .next ⟨.inl rfl, .inl ⟨rfl, rfl⟩, .inl rfl, .inl rfl, .inr (by simp [mnemonic]),
      .inl (by simp [mnemonic])⟩
  | plp =>
    exact .next ⟨.inr (by simp [mnemonic, writesC]), .inr (by simp [mnemonic, writesZN]),
      .inr (by simp [mnemonic]), .inr (by simp [mnemonic]), .inr (by simp [mnemonic]),
      .inl (by simp [mnemonic])⟩
  | rti =>
    refine .next ?_
    rw [charge_eq, returnFromInterrupt_eq]
    exact ⟨.inr (by simp [mnemonic, writesC]), .inr (by simp [mnemonic, writesZN]), .inr (by simp [mnemonic]),
      .inr (by simp [mnemonic]), .inr (by simp [mnemonic]), .inl (by simp [mnemonic])⟩
  | jsr | rts =>
    refine .next ?_
    simp only [charge_eq, push16_eq_pushed16, pull16_eq]
    exact .kept s.p (by simp [mnemonic])
  | brk =>
    refine .next ?_
    rw [charge_eq, interrupt_eq]
    exact ⟨.inl rfl, .inl ⟨rfl, rfl⟩, .inr (by simp [mnemonic]), .inl rfl, .inl rfl, .inr rfl⟩
  | jmp m => exact execJmp_flags m (by simp [mnemonic]) s
  | bcc | bcs | beq | bne | bmi | bpl | bvc | bvs => exact branchInstr_flags _ _ (by simp [mnemonic]) s
  | _ => exact .next (.kept s.p (by simp [mnemonic]))

/-- Settles O38: the row of the instruction in the table (`exec_flags`), flag by flag. -/
theorem flagsWrittenOnlyByTable : Obligations.FlagsWrittenOnlyByTable := by
  intro i s t h
  obtain ⟨hc, hzn, hi, hd, hv, hbrk⟩ := exec_flags i s t h
  exact ⟨hc.resolve_right, hzn.resolve_right, hi.resolve_right, hd.resolve_right, hv.resolve_right,
    fun hname => hbrk.resolve_left fun hne => hne hname⟩

/-! ### The registers (R21 to R23) -/

/-- The shifts and rotates. -/
def shiftNames : List String := ["ASL", "LSR", "ROL", "ROR"]

/-- Each register is kept, or the rules list the instruction for it; a shift or rotate writes `A` only in
its accumulator form. -/
structure RegistersByTable (i : Instr) (s t : State) : Prop where
  a : t.a = s.a ∨ (mnemonic i ∈ writesA ∧ ¬ (mnemonic i ∈ shiftNames ∧ (memMode i).isSome = true))
  x : t.x = s.x ∨ mnemonic i ∈ ["LDX", "TAX", "TSX", "INX", "DEX"]
  y : t.y = s.y ∨ mnemonic i ∈ ["LDY", "TAY", "INY", "DEY"]
  sp : t.sp = s.sp ∨ mnemonic i ∈ writesS

/-- A next state among the outcomes has its registers by the rules. -/
def OutcomeRegisters (i : Instr) (s : State) (o : Host.Outcome State Fault Refusal) : Prop :=
  ∀ t, o = .next t → RegistersByTable i s t

theorem OutcomeRegisters.next {i : Instr} {s t : State} (h : RegistersByTable i s t) :
    OutcomeRegisters i s (.next t) := fun _ ht => by cases ht; exact h

section
variable {i : Instr}

theorem RegistersByTable.kept {s t : State} (ha : t.a = s.a) (hx : t.x = s.x) (hy : t.y = s.y)
    (hsp : t.sp = s.sp) : RegistersByTable i s t := ⟨.inl ha, .inl hx, .inl hy, .inl hsp⟩

/-- The rules speak of the registers before and after only, which a read leaves alone. -/
theorem RegistersByTable.of_read {s u t : State} (hread : SameButDevices s u)
    (h : RegistersByTable i u t) : RegistersByTable i s t := by
  have hsp : u.sp = s.sp := by rw [hread]
  exact ⟨hread.a ▸ h.a, hread.x ▸ h.x, hread.y ▸ h.y, hsp ▸ h.sp⟩

theorem readInstr_registers (o : ReadOperand) {f : Byte → State → State}
    (hf : ∀ b u, RegistersByTable i u (f b u)) (s : State) : OutcomeRegisters i s (readInstr o f s) := by
  intro t h
  obtain ⟨b, u, hload, rfl⟩ := readInstr_cases h
  obtain ⟨ha, hx, hy, hsp⟩ := hf b u
  exact .of_read (loadOperand_same hload) ⟨ha, hx, hy, hsp⟩

theorem memWrite_registers {a : Word} {v : Byte} {s t : State} (h : memWrite a v s = .ok t) :
    t.a = s.a ∧ t.x = s.x ∧ t.y = s.y ∧ t.sp = s.sp ∧ t.pc = s.pc := by
  rw [memWrite_same h]
  exact ⟨rfl, rfl, rfl, rfl, rfl⟩

theorem storeInstr_registers (m : MemMode) (v : Byte) (s : State) :
    OutcomeRegisters i s (storeInstr m v s) := by
  intro t h
  obtain ⟨u, hwrite, rfl⟩ := storeInstr_cases h
  obtain ⟨ha, hx, hy, hsp, -⟩ := memWrite_registers hwrite
  exact .kept ha hx hy hsp

theorem modifyInstr_mem_registers (m : MemMode) (n : Nat) (f : Byte → Flags → Byte × Flags) (s : State) :
    OutcomeRegisters i s (modifyInstr (.mem m) n f s) := by
  intro t h
  obtain ⟨b, u, w, hload, hstore, rfl⟩ := modifyInstr_cases h
  obtain ⟨ha, hx, hy, hsp, -⟩ := memWrite_registers hstore
  exact .of_read (memRead_same hload) (.kept ha hx hy hsp)

theorem branchInstr_registers (cond : Bool) (off : Byte) (s : State) :
    OutcomeRegisters i s (branchInstr cond off s) := by
  cases cond <;> exact .next (.kept rfl rfl rfl rfl)

theorem execJmp_registers (m : JmpForm) (s : State) : OutcomeRegisters i s (execJmp m s) := by
  cases m with
  | abs w => exact .next (.kept rfl rfl rfl rfl)
  | ind ptr =>
    simp only [execJmp]
    split
    · exact fun _ h => nomatch h
    · next hread => exact .next (.of_read (readPointer_same hread) (.kept rfl rfl rfl rfl))

end

/-- Which registers each instruction keeps, and which the rules list it for. -/
theorem exec_registers (i : Instr) (s : State) : OutcomeRegisters i s (exec i s) := by
  cases i with
  | lda | adc | sbc | and | ora | eor =>
    refine readInstr_registers _ ?_ s
    exact fun _ _ => ⟨.inr ⟨by simp [mnemonic, writesA], fun h => by simp [mnemonic, shiftNames] at h⟩,
      .inl rfl, .inl rfl, .inl rfl⟩
  | ldx =>
    refine readInstr_registers _ ?_ s
    exact fun _ _ => ⟨.inl rfl, .inr (by simp [mnemonic]), .inl rfl, .inl rfl⟩
  | ldy =>
    refine readInstr_registers _ ?_ s
    exact fun _ _ => ⟨.inl rfl, .inl rfl, .inr (by simp [mnemonic]), .inl rfl⟩
  | cmp | cpx | cpy | bit =>
    refine readInstr_registers _ ?_ s
    exact fun _ _ => .kept rfl rfl rfl rfl
  | sta | stx | sty => exact storeInstr_registers _ _ s
  | inc m | dec m => cases m <;> exact modifyInstr_mem_registers _ _ _ s
  | asl m | lsr m | rol m | ror m =>
    cases m with
    | acc => exact .next ⟨.inr ⟨by simp [mnemonic, writesA], fun h => absurd h.2 (by decide)⟩, .inl rfl,
      .inl rfl, .inl rfl⟩
    | zp | zpx | abs | abx => exact modifyInstr_mem_registers _ _ _ s
  | txa | tya =>
    exact .next ⟨.inr ⟨by simp [mnemonic, writesA], fun h => by simp [mnemonic, shiftNames] at h⟩,
      .inl rfl, .inl rfl, .inl rfl⟩
  | tax | tsx | inx | dex => exact .next ⟨.inl rfl, .inr (by simp [mnemonic]), .inl rfl, .inl rfl⟩
  | tay | iny | dey => exact .next ⟨.inl rfl, .inl rfl, .inr (by simp [mnemonic]), .inl rfl⟩
  | pla =>
    exact .next ⟨.inr ⟨by simp [mnemonic, writesA], fun h => by simp [mnemonic, shiftNames] at h⟩,
      .inl rfl, .inl rfl, .inr (by simp [mnemonic, writesS])⟩
  | txs | pha | php | plp =>
    exact .next ⟨.inl rfl, .inl rfl, .inl rfl, .inr (by simp [mnemonic, writesS])⟩
  | jsr | rts | brk | rti =>
    refine .next ?_
    simp only [charge_eq, push16_eq_pushed16, pull16_eq, interrupt_eq, returnFromInterrupt_eq]
    exact ⟨.inl rfl, .inl rfl, .inl rfl, .inr (by simp [mnemonic, writesS])⟩
  | jmp m => exact execJmp_registers m s
  | bcc | bcs | beq | bne | bmi | bpl | bvc | bvs => exact branchInstr_registers _ _ s
  | _ => exact .next (.kept rfl rfl rfl rfl)

/-! ### `PC` (R14, R24) -/

/-- A next state among the outcomes is at the instruction after one of `len` bytes. -/
def OutcomePc (len : Nat) (s : State) (o : Host.Outcome State Fault Refusal) : Prop :=
  ∀ t, o = .next t → t.pc = s.pc + BitVec.ofNat 16 len

theorem OutcomePc.next {len : Nat} {s t : State} (h : t.pc = s.pc + BitVec.ofNat 16 len) :
    OutcomePc len s (.next t) := fun _ ht => by cases ht; exact h

theorem readInstr_pc {o : ReadOperand} {len : Nat} (hlen : readLength o = len) {f : Byte → State → State}
    (hf : ∀ b u, (f b u).pc = u.pc) (s : State) : OutcomePc len s (readInstr o f s) := by
  intro t h
  obtain ⟨b, u, hload, rfl⟩ := readInstr_cases h
  have hu : u.pc = s.pc := by rw [loadOperand_same hload]
  rw [finish_eq, hlen, hf, hu]

theorem storeInstr_pc {m : MemMode} {len : Nat} (hlen : memLength m = len) (v : Byte) (s : State) :
    OutcomePc len s (storeInstr m v s) := by
  intro t h
  obtain ⟨u, hwrite, rfl⟩ := storeInstr_cases h
  obtain ⟨-, -, -, -, hpc⟩ := memWrite_registers hwrite
  rw [finish_eq, hlen, hpc]

theorem modifyInstr_pc {o : ModOperand} {len : Nat} (hlen : modLength o = len) (n : Nat)
    (f : Byte → Flags → Byte × Flags) (s : State) : OutcomePc len s (modifyInstr o n f s) := by
  intro t h
  obtain ⟨b, u, w, hload, hstore, rfl⟩ := modifyInstr_cases h
  have hu : u.pc = s.pc := by rw [loadTarget_same hload]
  have hw : w.pc = u.pc := by
    cases o with
    | acc => cases hstore; rfl
    | mem m => exact (memWrite_registers hstore).2.2.2.2
  rw [finish_eq, hlen, State.setP_pc, hw, hu]

/-- Every instruction that is no control transfer and no undefined opcode. -/
theorem exec_pc (i : Instr) (s : State) (htransfer : mnemonic i ∉ transfers) (hund : mnemonic i ≠ "UND") :
    OutcomePc i.length s (exec i s) := by
  cases i with
  | lda m | adc m | sbc m | and m | ora m | eor m | cmp m | ldx m | ldy m | cpx m | cpy m | bit m =>
    refine readInstr_pc (by cases m <;> rfl) ?_ s
    exact fun _ _ => rfl
  | sta m | stx m | sty m => exact storeInstr_pc (by cases m <;> rfl) _ s
  | inc m | dec m | asl m | lsr m | rol m | ror m => exact modifyInstr_pc (by cases m <;> rfl) _ _ s
  | jmp | jsr | rts | bcc | bcs | beq | bne | bmi | bpl | bvc | bvs | brk | rti =>
    exact absurd (by simp [mnemonic, transfers]) htransfer
  | und => exact absurd rfl hund
  | _ => exact .next rfl

/-- Settles O39: the registers by `exec_registers`, and `PC` by `exec_pc`. -/
theorem registersWrittenOnlyByTable : Obligations.RegistersWrittenOnlyByTable := by
  intro i s t h
  obtain ⟨ha, hx, hy, hsp⟩ := exec_registers i s t h
  exact ⟨fun hname => ha.resolve_right fun hw => hname hw.1,
    fun hname hmem => ha.resolve_right fun hw => hw.2 ⟨hname, hmem⟩,
    hx.resolve_right, hy.resolve_right, hsp.resolve_right,
    fun htransfer hund => exec_pc i s htransfer hund t h⟩

end Sys2Proof.Machine

/-! PROOFS for O41, O42 and O43: what the instructions do to memory (20_memory.md R61, R62, R64, R72). -/

namespace Sys2Proof.Machine

open Spec (memMode mnemonic storers modMode storesNothing storeMode ramCell SameDevices cell pushed16)

/-! ### Instructions that store nothing -/

/-- What reads and the CPU's own changes leave alone: every memory and the control registers. -/
structure MemoryKept (s t : State) : Prop where
  devices : ReadFrame s t
  ram : t.ram = s.ram
  params : t.params = s.params

theorem SameButCpu.readFrame {s t : State} (h : SameButCpu s t) : ReadFrame s t := by
  rw [h]
  exact ⟨rfl, rfl, rfl, rfl, rfl, rfl, rfl, rfl, rfl, rfl, rfl, rfl, rfl, id, rfl, rfl, rfl, rfl, rfl, rfl,
    rfl⟩

theorem memRead_memoryKept {a : Word} {s t : State} {b : Byte} (h : memRead a s = .ok (b, t)) :
    MemoryKept s t :=
  ⟨memRead_frame h, (memRead_same h).ram, by rw [memRead_same h]⟩

theorem memoryKept_accessRelation : AccessRelation MemoryKept where
  trans h h' := ⟨h.devices.trans h'.devices, h'.ram.trans h.ram, h'.params.trans h.params⟩
  cpu h := ⟨h.readFrame, by rw [h], by rw [h]⟩
  read := memRead_memoryKept

theorem MemoryKept.sameRom {s t : State} (h : MemoryKept s t) : SameRom s t :=
  ⟨h.devices.write.cart, h.devices.write.rom, h.params⟩

theorem MemoryKept.chr {s t : State} (h : MemoryKept s t) : t.cart.chr = s.cart.chr := by
  rw [h.devices.cart]

/-- Settles O41: an instruction that stores nothing is made of reads and of the CPU's own changes
(`exec_rel`), which keep the memories. -/
theorem nonStoringKeepMemory : Obligations.NonStoringKeepMemory := by
  intro i s t hi h
  have hkept : MemoryKept s t := exec_rel memoryKept_accessRelation
    (fun hno => absurd (hno.symm.trans hi) Bool.false_ne_true) h
  have hdev := hkept.devices
  exact ⟨hkept.ram, hdev.vram, hdev.pal, hdev.oam, hkept.chr,
    fun hn a ha => peek_plain_congr hn hkept.sameRom ha fun _ => by rw [hkept.ram],
    hdev.ctrl, hdev.mask, hdev.tReg, hdev.x, hdev.oamaddr, hdev.mode, hdev.inhibit, hdev.fc, hdev.strobe⟩

/-! ### Stores and read-modify-writes -/

/-- A store through `m`: from `s`, or from the state after a read of the same address, one bus write of
`v`, and then the CPU's own changes. -/
structure StoredThrough (m : MemMode) (v : Byte) (s t : State) : Prop where
  write : ∃ u w, (u = s ∨ ∃ b, memRead (effAddr m s) s = .ok (b, u)) ∧
    memWrite (effAddr m s) v u = .ok w ∧ SameButCpu w t

theorem storeInstr_stored {m : MemMode} {v : Byte} {s t : State} (h : storeInstr m v s = .next t) :
    StoredThrough m v s t := by
  obtain ⟨w, hwrite, rfl⟩ := storeInstr_cases h
  exact ⟨s, w, .inl rfl, hwrite, rfl⟩

theorem modifyInstr_stored {o : ModOperand} {m : MemMode} (ho : modMode o = some m) {n : Nat}
    {f : Byte → Flags → Byte × Flags} {s t : State} (h : modifyInstr o n f s = .next t) :
    ∃ v, StoredThrough m v s t := by
  obtain rfl := modMode_eq_some_iff.mp ho
  obtain ⟨b, u, w, hread, hwrite, rfl⟩ := modifyInstr_cases h
  exact ⟨_, u, w, .inr ⟨b, hread⟩, hwrite, rfl⟩

/-- `v` is the register that `i` stores, if `i` is STA, STX or STY. -/
def StoresRegister (i : Instr) (v : Byte) (s : State) : Prop :=
  (mnemonic i = "STA" → v = s.a) ∧ (mnemonic i = "STX" → v = s.x) ∧ (mnemonic i = "STY" → v = s.y)

theorem storeMode_eq_some {i : Instr} {m : MemMode} (h : storeMode i = some m) :
    mnemonic i ∈ storers ∧ memMode i = some m := by
  unfold storeMode at h
  split at h
  · next hname => exact ⟨List.contains_iff_mem.mp hname, h⟩
  · cases h

theorem exec_stored {i : Instr} {m : MemMode} {s t : State} (hm : storeMode i = some m)
    (h : exec i s = .next t) :
    ∃ v, StoresRegister i v s ∧ StoredThrough m v s t := by
  obtain ⟨hname, hmode⟩ := storeMode_eq_some hm
  cases i with
  | sta | stx | sty =>
    obtain rfl := Option.some.inj hmode
    exact ⟨_, by simp [StoresRegister, mnemonic], storeInstr_stored h⟩
  | inc | dec | asl | lsr | rol | ror =>
    obtain ⟨v, hv⟩ := modifyInstr_stored hmode h
    exact ⟨v, by simp [StoresRegister, mnemonic], hv⟩
  | _ => simp [mnemonic, storers] at hname

/-! ### What a write does to each memory -/

theorem ramCell_of_lt {a : Word} (h : a.toNat < 0x2000) : ramCell a = some (a.toNat % 0x800) := if_pos h

theorem ramCell_eq_some_iff {a : Word} {c : Nat} :
    ramCell a = some c ↔ a.toNat < 0x2000 ∧ a.toNat % 0x800 = c := by
  unfold ramCell
  split
  case isTrue ha => rw [Option.some.injEq]; exact ⟨fun h => ⟨ha, h⟩, fun h => h.2⟩
  case isFalse ha => exact ⟨fun h => (nomatch h), fun h => absurd h.1 ha⟩

/-- A write changes no RAM cell but that of its address (R61). -/
theorem memWrite_ram_read_other {a : Word} {v : Byte} {s t : State} (h : memWrite a v s = .ok t) {c : Nat}
    (hc : ramCell a ≠ some c) : t.ram.read c = s.ram.read c := by
  by_cases ha : a.toNat < 0x2000
  · rw [memWrite_ram v ha] at h
    cases h
    rw [ramCell_of_lt ha] at hc
    exact Memory.read_write_other _ _ fun hcell => hc (by rw [hcell])
  · rw [memWrite_ram_other h (by omega)]

/-- The PPU's memories but OAM, and CHR, change only through $2007 (R278). -/
theorem memWrite_vram {a : Word} {v : Byte} {s t : State} (h : memWrite a v s = .ok t)
    (ha : ¬ (0x2000 ≤ a.toNat ∧ a.toNat < 0x4000 ∧ a.toNat % 8 = 7)) :
    t.ppu.vram = s.ppu.vram ∧ t.ppu.pal = s.ppu.pal ∧ t.cart.chr = s.cart.chr := by
  rcases memWrite_cases h with ⟨-, rfl⟩ | ⟨hwin, h⟩ | ⟨-, s1, h1, rfl⟩ | ⟨-, rfl⟩ | ⟨-, rfl⟩ |
    ⟨-, rfl⟩ | ⟨-, rfl⟩
  case inr.inl =>
    rcases ppuRegWrite_cases h with ⟨-, rfl⟩ | ⟨-, rfl⟩ | ⟨-, rfl⟩ | ⟨-, rfl⟩ | ⟨-, rfl⟩ |
      ⟨-, rfl⟩ | ⟨h7, -, -⟩ | rfl
    case inr.inr.inr.inr.inl => rw [Ppu.writeScroll_frame]; exact ⟨rfl, rfl, rfl⟩
    case inr.inr.inr.inr.inr.inl => rw [Ppu.writeAddr_frame]; exact ⟨rfl, rfl, rfl⟩
    case inr.inr.inr.inr.inr.inr.inl => exact absurd ⟨hwin.1, hwin.2, h7⟩ ha
    all_goals exact ⟨rfl, rfl, rfl⟩
  case inr.inr.inl =>
    have hdma := dmaCopy_frame h1
    have hcart : s1.cart = { s.cart with regs := s1.cart.regs } := hdma.cart
    have hchr : s1.cart.chr = s.cart.chr := by rw [hcart]
    exact ⟨hdma.vram, hdma.pal, hchr⟩
  case inr.inr.inr.inr.inr.inr =>
    rw [Cart.cpuWrite_eq]
    exact ⟨rfl, rfl, rfl⟩
  all_goals exact ⟨rfl, rfl, rfl⟩

/-- OAM changes only through $2004 and the DMA of $4014 (R275, R296). -/
theorem memWrite_oam {a : Word} {v : Byte} {s t : State} (h : memWrite a v s = .ok t)
    (ha : ¬ (0x2000 ≤ a.toNat ∧ a.toNat < 0x4000 ∧ a.toNat % 8 = 4)) (hdma : a ≠ 0x4014#16) :
    t.ppu.oam = s.ppu.oam := by
  rcases memWrite_cases h with ⟨-, rfl⟩ | ⟨hwin, h⟩ | ⟨h14, -⟩ | ⟨-, rfl⟩ | ⟨-, rfl⟩ | ⟨-, rfl⟩ | ⟨-, rfl⟩
  case inr.inl =>
    rcases ppuRegWrite_cases h with ⟨-, rfl⟩ | ⟨-, rfl⟩ | ⟨-, rfl⟩ | ⟨h4, -⟩ | ⟨-, rfl⟩ |
      ⟨-, rfl⟩ | ⟨-, -, rfl⟩ | rfl
    case inr.inr.inr.inl => exact absurd ⟨hwin.1, hwin.2, h4⟩ ha
    case inr.inr.inr.inr.inl => rw [Ppu.writeScroll_frame]; rfl
    case inr.inr.inr.inr.inr.inl => rw [Ppu.writeAddr_frame]; rfl
    case inr.inr.inr.inr.inr.inr.inl => rw [(Ppu.writeData_frame s.ppu s.cart v).1]; rfl
    all_goals rfl
  case inr.inr.inl => exact absurd h14 hdma
  all_goals rfl

/-! ### The frame of a store -/

section
variable {m : MemMode} {v : Byte} {s t : State} (h : StoredThrough m v s t)
include h

/-- The state that the write acts on has the memories of `s`. -/
theorem StoredThrough.memoryKept_write :
    ∃ u w, MemoryKept s u ∧ memWrite (effAddr m s) v u = .ok w ∧ SameButCpu w t := by
  obtain ⟨u, w, hu, hwrite, hcpu⟩ := h.write
  refine ⟨u, w, ?_, hwrite, hcpu⟩
  rcases hu with rfl | ⟨b, hread⟩
  · exact ⟨.refl u, rfl, rfl⟩
  · exact memRead_memoryKept hread

theorem StoredThrough.ram_other {c : Nat} (hc : ramCell (effAddr m s) ≠ some c) :
    t.ram.read c = s.ram.read c := by
  obtain ⟨u, w, hkept, hwrite, hcpu⟩ := h.memoryKept_write
  rw [hcpu, ← hkept.ram]
  exact memWrite_ram_read_other hwrite hc

theorem StoredThrough.vram
    (ha : ¬ (0x2000 ≤ (effAddr m s).toNat ∧ (effAddr m s).toNat < 0x4000 ∧ (effAddr m s).toNat % 8 = 7)) :
    t.ppu.vram = s.ppu.vram ∧ t.ppu.pal = s.ppu.pal ∧ t.cart.chr = s.cart.chr := by
  obtain ⟨u, w, hkept, hwrite, hcpu⟩ := h.memoryKept_write
  obtain ⟨hvram, hpal, hchr⟩ := memWrite_vram hwrite ha
  rw [hcpu]
  exact ⟨hvram.trans hkept.devices.vram, hpal.trans hkept.devices.pal, hchr.trans hkept.chr⟩

theorem StoredThrough.oam
    (ha : ¬ (0x2000 ≤ (effAddr m s).toNat ∧ (effAddr m s).toNat < 0x4000 ∧ (effAddr m s).toNat % 8 = 4))
    (hdma : effAddr m s ≠ 0x4014#16) : t.ppu.oam = s.ppu.oam := by
  obtain ⟨u, w, hkept, hwrite, hcpu⟩ := h.memoryKept_write
  rw [hcpu]
  exact (memWrite_oam hwrite ha hdma).trans hkept.devices.oam

/-- A store into RAM is the write of one cell, and nothing else but the CPU's own changes. -/
theorem StoredThrough.of_ram (ha : (effAddr m s).toNat < 0x2000) :
    SameButCpu (s.setRam (s.ram.write ((effAddr m s).toNat % 0x800) v)) t := by
  obtain ⟨u, w, hu, hwrite, hcpu⟩ := h.write
  have hus : u = s := by
    rcases hu with rfl | ⟨b, hread⟩
    · rfl
    · rw [memRead_ram ha] at hread
      cases hread
      rfl
  rw [hus, memWrite_ram v ha] at hwrite
  cases hwrite
  exact hcpu

end

/-- Settles O42: the instruction is a store through its mode (`exec_stored`), and each memory has the frame
of that one write. -/
theorem storeFrame : Obligations.StoreFrame := by
  intro i m s t hm h
  obtain ⟨v, hreg, hstored⟩ := exec_stored hm h
  have hrom : SameRom s t :=
    (exec_rel hiddenKept_accessRelation (fun _ => hiddenKept_relatesWrites) h).sameRom
  refine ⟨fun c hc => hstored.ram_other hc, fun hn a ha hother => ?plain, fun c hc => ?devices,
    fun c hc hwf => ?value, hstored.vram, hstored.oam⟩
  case plain =>
    refine peek_plain_congr hn hrom ha fun hlt => hstored.ram_other fun hcell => ?_
    rw [ramCell_of_lt hlt] at hother
    exact hother.elim (fun hnone => nomatch hnone) fun hne => hne hcell.symm
  case devices =>
    have hcpu := hstored.of_ram (ramCell_eq_some_iff.mp hc).1
    rw [hcpu]
    exact ⟨rfl, rfl, rfl, rfl⟩
  case value =>
    obtain ⟨hlt, rfl⟩ := ramCell_eq_some_iff.mp hc
    have hcpu := hstored.of_ram hlt
    have hread : t.ram.read ((effAddr m s).toNat % 0x800) = v := by
      rw [hcpu]
      exact Memory.read_write_same hwf _ _
    rw [hread]
    exact hreg

/-! ### Pushes -/

theorem pushed16_read_other (ram : Memory) {sp : Byte} (w : Word) {c : Nat} (hhigh : c ≠ cell sp)
    (hlow : c ≠ cell (sp - 1#8)) : (pushed16 ram sp w).read c = ram.read c := by
  rw [pushed16, Memory.read_write_other _ _ hlow, Memory.read_write_other _ _ hhigh]

/-- The rows of O43's list, as instructions. -/
theorem pushRow_cases {i : Instr} {sp : Byte} {cells : List Nat}
    (h : (mnemonic i, cells) ∈ [("PHA", [cell sp]), ("PHP", [cell sp]),
      ("JSR", [cell sp, cell (sp - 1#8)]), ("BRK", [cell sp, cell (sp - 1#8), cell (sp - 2#8)])]) :
    (i = .pha ∧ cells = [cell sp]) ∨ (i = .php ∧ cells = [cell sp]) ∨
      ((∃ w, i = .jsr w) ∧ cells = [cell sp, cell (sp - 1#8)]) ∨
      (i = .brk ∧ cells = [cell sp, cell (sp - 1#8), cell (sp - 2#8)]) := by
  cases i with
  | pha | php | jsr | brk => simpa [mnemonic] using h
  | _ => simp [mnemonic] at h

/-- Each of the four answers the state that O23, O26 and O30 give, from which the frame is read off. -/
theorem push_frame {i : Instr} {s t : State} {cells : List Nat}
    (hrow : (i = .pha ∧ cells = [cell s.sp]) ∨ (i = .php ∧ cells = [cell s.sp]) ∨
      ((∃ w, i = .jsr w) ∧ cells = [cell s.sp, cell (s.sp - 1#8)]) ∨
      (i = .brk ∧ cells = [cell s.sp, cell (s.sp - 1#8), cell (s.sp - 2#8)]))
    (h : exec i s = .next t) :
    (∀ c, c ∉ cells → t.ram.read c = s.ram.read c) ∧ t.ppu = s.ppu ∧ t.apu = s.apu ∧ t.pads = s.pads ∧
      (mnemonic i ≠ "BRK" → t.cart = s.cart) := by
  obtain ⟨hpha, hphp, -, -⟩ := stackResults s
  rcases hrow with ⟨rfl, rfl⟩ | ⟨rfl, rfl⟩ | ⟨⟨w, rfl⟩, rfl⟩ | ⟨rfl, rfl⟩
  case inl =>
    cases hpha.symm.trans h
    exact ⟨fun c hc => Memory.read_write_other _ _ (by simpa using hc), rfl, rfl, rfl, fun _ => rfl⟩
  case inr.inl =>
    cases hphp.symm.trans h
    exact ⟨fun c hc => Memory.read_write_other _ _ (by simpa using hc), rfl, rfl, rfl, fun _ => rfl⟩
  case inr.inr.inl =>
    cases (subroutineResults.1 w s).symm.trans h
    refine ⟨fun c hc => ?_, rfl, rfl, rfl, fun _ => rfl⟩
    simp only [List.mem_cons, List.not_mem_nil, or_false, not_or] at hc
    exact pushed16_read_other s.ram _ hc.1 hc.2
  case inr.inr.inr =>
    cases (brkRtiResults.1 s).symm.trans h
    refine ⟨fun c hc => ?_, rfl, rfl, rfl, fun hbrk => absurd rfl hbrk⟩
    simp only [List.mem_cons, List.not_mem_nil, or_false, not_or] at hc
    obtain ⟨hhigh, hlow, hstatus⟩ := hc
    exact (Memory.read_write_other _ _ hstatus).trans (pushed16_read_other s.ram _ hhigh hlow)

/-- Settles O43: the frame of each push (`push_frame`); a plain address shows its RAM cell or the ROM. -/
theorem pushFrame : Obligations.PushFrame := by
  intro i s t cells hrow h
  obtain ⟨hram, hppu, hapu, hpads, hcart⟩ := push_frame (pushRow_cases hrow) h
  have hrom : SameRom s t :=
    (exec_rel hiddenKept_accessRelation (fun _ => hiddenKept_relatesWrites) h).sameRom
  refine ⟨hram, hppu, hapu, hpads, hcart, fun hn a ha hcells => peek_plain_congr hn hrom ha fun hlt => ?_⟩
  exact hram _ (hcells _ (ramCell_of_lt hlt))

end Sys2Proof.Machine

/-! PROOFS for O8, O24, O27 and O31: the entry of an interrupt, and what goes to the stack comes back from
it (40_addressing_modes.md R133, R134; 60_exceptions.md R256). -/

namespace Sys2Proof.Machine

open Spec (cell high low image unimage zn pushed16 charged done)

/-- Settles O8: the entry's equation, with the vector read as the cartridge answers it. -/
theorem interruptEntry : Obligations.InterruptEntry := by
  intro k s
  rw [interrupt_eq, readVector_eq]
  cases k <;> rfl

/-! ### The stack cells -/

theorem cell_lt (sp : Byte) : cell sp < 0x800 := by
  have := sp.isLt
  simp only [cell]
  omega

theorem cell_inj {a b : Byte} : cell a = cell b ↔ a = b := by
  simp only [cell, Nat.add_left_cancel_iff, BitVec.toNat_inj]

theorem wf_pushed16 {ram : Memory} (hwf : Memory.wf 0x800 ram = true) (sp : Byte) (w : Word) :
    Memory.wf 0x800 (pushed16 ram sp w) = true :=
  Memory.wf_write (Memory.wf_write hwf (cell_lt _) _) (cell_lt _) _

theorem pushed16_read_low {ram : Memory} (hwf : Memory.wf 0x800 ram = true) (sp : Byte) (w : Word) :
    (pushed16 ram sp w).read (cell (sp - 1#8)) = low w :=
  Memory.read_write_same (Memory.wf_write hwf (cell_lt _) _) _ _

theorem pushed16_read_high {ram : Memory} (hwf : Memory.wf 0x800 ram = true) (sp : Byte) (w : Word) :
    (pushed16 ram sp w).read (cell sp) = high w := by
  have hne : cell sp ≠ cell (sp - 1#8) := by
    rw [Ne, cell_inj]
    bv_omega
  rw [pushed16, Memory.read_write_other _ _ hne, Memory.read_write_same hwf]

theorem high_low_toNat (w : Word) : (high w).toNat * 256 + (low w).toNat = w.toNat := by
  have hw := w.isLt
  simp only [high, low, BitVec.toNat_ofNat]
  omega

/-! ### The round trips -/

/-- Settles O24: RTS pulls the word that JSR pushed, the address of its own last byte, and adds one. -/
theorem jsrRtsRoundTrip : Obligations.JsrRtsRoundTrip := by
  intro w s hwf
  refine ⟨_, _, subroutineResults.1 w s, subroutineResults.2.1 _, rfl, ?pc, ?sp, rfl, rfl, rfl, rfl⟩
  case sp => exact BitVec.sub_add_cancel s.sp 2#8
  case pc =>
    have hhigh : s.sp - 2#8 + 2#8 = s.sp := BitVec.sub_add_cancel s.sp 2#8
    have hlow : s.sp - 2#8 + 1#8 = s.sp - 1#8 := by bv_omega
    change BitVec.ofNat 16 (((((pushed16 s.ram s.sp (s.pc + 2#16)).read (cell (s.sp - 2#8 + 2#8))).toNat *
      256 + ((pushed16 s.ram s.sp (s.pc + 2#16)).read (cell (s.sp - 2#8 + 1#8))).toNat) + 1) % 65536) =
      s.pc + 3#16
    rw [hhigh, hlow, pushed16_read_high hwf, pushed16_read_low hwf, high_low_toNat]
    bv_omega

theorem unimage_image (f : Flags) (brk : Bool) : unimage (image f brk) = f := by
  obtain ⟨c, z, i, d, v, n⟩ := f
  revert c z i d v n brk
  decide

/-- Bits 5 and 4 of the byte that PHP pushes are set (R27). -/
theorem image_marked (f : Flags) : image f true &&& 0x30#8 = 0x30#8 := by
  obtain ⟨c, z, i, d, v, n⟩ := f
  revert c z i d v n
  decide

/-- Settles O27: the pull reads the cell that the push wrote. -/
theorem stackRoundTrips : Obligations.StackRoundTrips := by
  intro s hwf
  obtain ⟨hpha, hphp, -, -⟩ := stackResults s
  have hsp : s.sp - 1#8 + 1#8 = s.sp := BitVec.sub_add_cancel s.sp 1#8
  have hread (v : Byte) : (s.ram.write (cell s.sp) v).read (cell (s.sp - 1#8 + 1#8)) = v := by
    rw [hsp, Memory.read_write_same hwf]
  refine ⟨⟨_, _, hphp, (stackResults _).2.2.1.2, ?flags, hsp, ?marked⟩,
    ⟨_, _, hpha, (stackResults _).2.2.1.1, hread s.a, hsp, ?zn⟩⟩
  case flags => exact (congrArg unimage (hread _)).trans (unimage_image _ _)
  case marked =>
    change (s.ram.write (cell s.sp) (image s.p true)).read (cell s.sp) &&& 0x30#8 = 0x30#8
    rw [Memory.read_write_same hwf, image_marked]
  case zn => exact congrArg (zn s.p) (hread s.a)

/-- The RAM after an entry: the return address and below it the status image. -/
theorem interrupt_ram (k : InterruptKind) (s : State) : (interrupt k s).ram =
    (pushed16 s.ram s.sp (k.returnAddress s.pc)).write (cell (s.sp - 2#8)) (image s.p k.marker) := by
  rw [interrupt_eq]

section
variable {s : State} (hwf : Memory.wf 0x800 s.ram = true) (k : InterruptKind)
include hwf

theorem interrupt_read_status : (interrupt k s).ram.read (cell (s.sp - 2#8)) = image s.p k.marker := by
  rw [interrupt_ram, Memory.read_write_same (wf_pushed16 hwf _ _)]

theorem interrupt_read_low : (interrupt k s).ram.read (cell (s.sp - 1#8)) = low (k.returnAddress s.pc) := by
  have hne : cell (s.sp - 1#8) ≠ cell (s.sp - 2#8) := by
    rw [Ne, cell_inj]
    bv_omega
  rw [interrupt_ram, Memory.read_write_other _ _ hne, pushed16_read_low hwf]

theorem interrupt_read_high : (interrupt k s).ram.read (cell s.sp) = high (k.returnAddress s.pc) := by
  have hne : cell s.sp ≠ cell (s.sp - 2#8) := by
    rw [Ne, cell_inj]
    bv_omega
  rw [interrupt_ram, Memory.read_write_other _ _ hne, pushed16_read_high hwf]

end

/-- Settles O31: RTI reads the three cells that the entry wrote. -/
theorem entryRtiRoundTrip : Obligations.EntryRtiRoundTrip := by
  intro k s hwf
  have hentry := interrupt_eq k s
  have hsp : (interrupt k s).sp = s.sp - 3#8 := by rw [hentry]
  have hstatus : (interrupt k s).sp + 1#8 = s.sp - 2#8 := by rw [hsp]; bv_omega
  have hlow : (interrupt k s).sp + 2#8 = s.sp - 1#8 := by rw [hsp]; bv_omega
  have hhigh : (interrupt k s).sp + 3#8 = s.sp := by rw [hsp]; bv_omega
  have hrti := brkRtiResults.2.1 (interrupt k s)
  rw [hstatus, hlow, hhigh, interrupt_read_status hwf, interrupt_read_low hwf, interrupt_read_high hwf,
    unimage_image, high_low_toNat, BitVec.ofNat_toNat, BitVec.setWidth_eq] at hrti
  have ha : (interrupt k s).a = s.a := by rw [hentry]
  have hx : (interrupt k s).x = s.x := by rw [hentry]
  have hy : (interrupt k s).y = s.y := by rw [hentry]
  clear hentry hsp hstatus hlow hhigh
  generalize interrupt k s = r at hrti ha hx hy
  refine ⟨_, hrti, rfl, rfl, ha, hx, hy, ?_⟩
  cases k <;> rfl

end Sys2Proof.Machine

/-! PROOFS for O32, O33, O36 and O37: operands and the bus (40_addressing_modes.md R123 to R136;
20_memory.md R62 to R64, R82). -/

namespace Sys2Proof.Machine

open Spec (withD)

/-! ### The decimal flag -/

theorem ppuRegRead_withD (d : Bool) (s : State) : ∀ r : Nat,
    ppuRegRead r (withD d s) = (ppuRegRead r s).map fun answer => (answer.1, withD d answer.2)
  | 7 => by
    change ite _ _ _ = Except.map _ (ite _ _ _)
    rw [show (withD d s).ppu = s.ppu from rfl]
    split_ifs <;> rfl
  | 0 | 1 | 2 | 3 | 4 | 5 | 6 | _ + 8 => rfl

theorem ioRead_withD (d : Bool) (a : Word) (s : State) :
    ioRead a (withD d s) = ((ioRead a s).1, withD d (ioRead a s).2) := by
  unfold ioRead
  split_ifs <;> rfl

/-- A read neither looks at the decimal flag nor changes it. -/
theorem memRead_withD (d : Bool) (a : Word) (s : State) :
    memRead a (withD d s) = (memRead a s).map fun answer => (answer.1, withD d answer.2) := by
  unfold memRead
  split_ifs
  · rfl
  · exact ppuRegRead_withD d s _
  · exact congrArg Except.ok (ioRead_withD d a s)
  · rfl

theorem loadOperand_withD (d : Bool) {o : ReadOperand} {s t : State} {b : Byte}
    (h : loadOperand o s = .ok (b, t)) : loadOperand o (withD d s) = .ok (b, withD d t) := by
  cases o with
  | imm c => cases h; rfl
  | mem m =>
    have hread : memRead (effAddr m s) (withD d s) = .ok (b, withD d t) := by
      rw [memRead_withD, show memRead (effAddr m s) s = .ok (b, t) from h]
      rfl
    rw [← hread]
    cases m <;> rfl

/-- A read instruction whose effect on the state commutes with setting `P.D` commutes with it. -/
theorem readInstr_withD (d : Bool) {o : ReadOperand} {f : Byte → State → State} {s t : State}
    (hf : ∀ b u, f b (withD d u) = withD d (f b u)) (h : readInstr o f s = .next t) :
    readInstr o f (withD d s) = .next (withD d t) := by
  obtain ⟨b, u, hload, rfl⟩ := readInstr_cases h
  have hcost : readCost o (withD d s) = readCost o s := by
    cases o with
    | imm => rfl
    | mem m => cases m <;> rfl
  rw [readInstr_next (loadOperand_withD d hload), hcost, hf]
  rfl

theorem addToA_withD (d : Bool) (b : Byte) (s : State) : addToA b (withD d s) = withD d (addToA b s) := by
  rw [addToA_eq, addToA_eq]
  rfl

/-- Settles O32: the operand's read and the adder both ignore `P.D`. -/
theorem decimalFlagIgnored : Obligations.DecimalFlagIgnored := fun _ _ _ d =>
  ⟨readInstr_withD d (addToA_withD d), readInstr_withD d fun b => addToA_withD d (b ^^^ 0xFF#8)⟩

/-! ### Effective addresses -/

theorem zpRead16_toNat (p : Byte) (s : State) : (zpRead16 p s).toNat =
    (s.ram.read ((p.toNat + 1) % 256)).toNat * 256 + (s.ram.read p.toNat).toNat := by
  rw [zpRead16, word_toNat, BitVec.toNat_add, Nat.mul_comm]
  rfl

theorem zpRead16_sum_toNat (b x : Byte) (s : State) : (zpRead16 (b + x) s).toNat =
    (s.ram.read ((b.toNat + x.toNat + 1) % 256)).toNat * 256 +
      (s.ram.read ((b.toNat + x.toNat) % 256)).toNat := by
  rw [zpRead16_toNat, BitVec.toNat_add, Nat.mod_add_mod]

theorem indexed_toNat (w : Word) (x : Byte) : (w + zext16 x).toNat = (w.toNat + x.toNat) % 65536 := by
  rw [BitVec.toNat_add, zext16_toNat]

theorem crosses_iff (w : Word) (x : Byte) : decide (hi8 (w + zext16 x) ≠ hi8 w) = true ↔
    (w.toNat + x.toNat) % 65536 / 256 ≠ w.toNat / 256 := by
  rw [decide_eq_true_iff, hi8_ne_hi8_iff, indexed_toNat]

/-- Settles O33: each mode is a zero extension, an indexed sum or a page-zero pointer, each with its value
in arithmetic. -/
theorem effectiveAddresses : Obligations.EffectiveAddresses := by
  intro b w s
  have hptr : (s.ram.read ((b.toNat + 1) % 256)).toNat * 256 + (s.ram.read (b.toNat % 256)).toNat =
      (zpRead16 b s).toNat := by
    rw [zpRead16_toNat, Nat.mod_eq_of_lt b.isLt]
  dsimp only
  rw [hptr]
  exact ⟨zext16_toNat b, (zext16_toNat _).trans (BitVec.toNat_add _ _),
    (zext16_toNat _).trans (BitVec.toNat_add _ _), rfl, indexed_toNat w s.x, indexed_toNat w s.y,
    zpRead16_sum_toNat b s.x s, indexed_toNat _ s.y, ⟨rfl, rfl, rfl, rfl, rfl⟩, crosses_iff w s.x,
    crosses_iff w s.y, crosses_iff _ s.y⟩

/-! ### The no-bank-switch cartridge -/

section
variable {c : Cart} (hn : c.variant = .nrom)
include hn

theorem Cart.chrRead_nrom (q : BitVec 14) : c.chrRead q = c.chr.read q.toNat := by
  rw [Cart.chrRead, hn]

theorem Cart.chrWrite_nrom (q : BitVec 14) (v : Byte) :
    c.chrWrite q v = if c.chrRam then { c with chr := c.chr.write q.toNat v } else c := by
  rw [Cart.chrWrite, hn]

theorem Cart.notifyScanline_nrom : c.notifyScanline = c := by
  rw [Cart.notifyScanline, hn]

theorem Cart.mirror_nrom : c.mirror = c.mirroring := by
  rw [Cart.mirror, hn]

end

/-- Settles O37: each operation has its branch for this variant. -/
theorem nromCartridge : Obligations.NromCartridge := by
  intro c ob v a q hn
  refine ⟨fun ha => ?rom, fun ha => ?below, Cart.cpuWrite_nrom hn a v, Cart.chrRead_nrom hn q,
    Cart.chrWrite_nrom hn q v, Cart.notifyScanline_nrom hn, Cart.mirror_nrom hn, Cart.irq_nrom hn⟩
  case rom => rw [Cart.cpuRead_nrom hn, if_pos ha, Cart.prgOffset]
  case below => rw [Cart.cpuRead_nrom hn, if_neg (by omega)]

/-! ### The register windows -/

section
variable {a : Word}

theorem memRead_ppuWindow (h : 0x2000 ≤ a.toNat) (h' : a.toNat < 0x4000) (s : State) :
    memRead a s = ppuRegRead (a.toNat % 8) s := by
  rw [memRead, if_neg (by omega), if_pos h']

theorem memWrite_ppuWindow (h : 0x2000 ≤ a.toNat) (h' : a.toNat < 0x4000) (v : Byte) (s : State) :
    memWrite a v s = ppuRegWrite (a.toNat % 8) v s := by
  rw [memWrite, if_neg (by omega), if_pos h']

theorem memRead_ioWindow (h : 0x4000 ≤ a.toNat) (h' : a.toNat < 0x4018) (s : State) :
    memRead a s = .ok (ioRead a s) := by
  rw [memRead, if_neg (by omega), if_neg (by omega), if_pos h']

theorem memWrite_ioWindow (h : 0x4000 ≤ a.toNat) (h' : a.toNat < 0x4018) (v : Byte) (s : State) :
    memWrite a v s = ioWrite a v s := by
  rw [memWrite, if_neg (by omega), if_neg (by omega), if_pos h']

theorem memRead_cartWindow (h : 0x4018 ≤ a.toNat) (s : State) : memRead a s = .ok (cartRead a s) := by
  rw [memRead, if_neg (by omega), if_neg (by omega), if_neg (by omega)]

theorem memWrite_cartWindow (h : 0x4018 ≤ a.toNat) (v : Byte) (s : State) :
    memWrite a v s = .ok (s.setCart (s.cart.cpuWrite a v)) := by
  rw [memWrite, if_neg (by omega), if_neg (by omega), if_neg (by omega)]

/-- The ports of the APU and the controllers that answer a read stand at $4015 to $4017 (R63). -/
theorem ioRead_below (h : a.toNat ≤ 0x4014) (s : State) : ioRead a s = (s.params.openBus, s) := by
  rw [ioRead, if_neg (by rintro rfl; simp at h), if_neg (by rintro rfl; simp at h),
    if_neg (by rintro rfl; simp at h)]

/-- The ports that a write reaches stand at $4014, $4016 and $4017 (R63). -/
theorem ioWrite_below (h : a.toNat ≤ 0x4013) (v : Byte) (s : State) : ioWrite a v s = .ok s := by
  rw [ioWrite, if_neg (by rintro rfl; simp at h), if_neg (by rintro rfl; simp at h),
    if_neg (by rintro rfl; simp at h)]

end

/-- Settles O36: the decoder's branch for each window. -/
theorem registerWindows : Obligations.RegisterWindows := by
  intro a v s
  refine ⟨fun hlo hhi => ?mirror, fun ha => ?writeOnly, rfl, fun hlo hhi => ?ioRead,
    fun hlo hhi => ?ioWrite, rfl, fun ha => ⟨memRead_cartWindow ha s, memWrite_cartWindow ha v s⟩⟩
  case mirror =>
    have hreg : (BitVec.ofNat 16 (0x2000 + a.toNat % 8)).toNat = 0x2000 + a.toNat % 8 := by
      rw [BitVec.toNat_ofNat]
      omega
    have hmod : (0x2000 + a.toNat % 8) % 8 = a.toNat % 8 := by omega
    rw [memRead_ppuWindow hlo hhi, memWrite_ppuWindow hlo hhi, memRead_ppuWindow (by omega) (by omega),
      memWrite_ppuWindow (by omega) (by omega), hreg, hmod]
    exact ⟨rfl, rfl⟩
  case writeOnly =>
    simp only [List.mem_cons, List.not_mem_nil, or_false] at ha
    rcases ha with rfl | rfl | rfl | rfl | rfl <;> rfl
  case ioRead => rw [memRead_ioWindow hlo (by omega), ioRead_below hhi]
  case ioWrite => rw [memWrite_ioWindow hlo (by omega), ioWrite_below hhi]

end Sys2Proof.Machine

/-! PROOFS for O47: the PPU's address space as one array of cells (20_memory.md R76). -/

namespace Sys2Proof.Machine

open Spec (ppuCell)

/-! ### The cell of an address -/

/-- The aliases among the 32 palette addresses: $10, $14, $18 and $1C. -/
theorem palIndex_of_lt : ∀ k < 32, palIndex (BitVec.ofNat 14 k) =
    if k = 16 ∨ k = 20 ∨ k = 24 ∨ k = 28 then k % 16 else k := by
  decide

theorem palIndex_mod (a : BitVec 14) : palIndex a = palIndex (BitVec.ofNat 14 (a.toNat % 32)) := by
  have hmask : BitVec.ofNat 14 (a.toNat % 32) = a &&& 0x1F#14 := by
    apply BitVec.eq_of_toNat_eq
    have hmod : a.toNat % 32 < 2 ^ 14 := by omega
    rw [BitVec.toNat_and, BitVec.toNat_ofNat, Nat.mod_eq_of_lt hmod]
    exact (Nat.and_two_pow_sub_one_eq_mod _ 5).symm
  have hidem : a &&& 0x1F#14 &&& 0x1F#14 = a &&& 0x1F#14 := by rw [BitVec.and_assoc, BitVec.and_self]
  rw [palIndex, palIndex, hmask, hidem]

theorem palIndex_eq (a : BitVec 14) : palIndex a =
    if a.toNat % 32 = 16 ∨ a.toNat % 32 = 20 ∨ a.toNat % 32 = 24 ∨ a.toNat % 32 = 28 then a.toNat % 16
    else a.toNat % 32 := by
  have hmod : a.toNat % 32 % 16 = a.toNat % 16 := by omega
  rw [palIndex_mod, palIndex_of_lt _ (by omega), hmod]

section
variable (m : Mirroring) {a : BitVec 14}

theorem ppuCell_pattern (h : a.toNat < 0x2000) : ppuCell m a.toNat = (0, a.toNat) := if_pos h

theorem ppuCell_nametable (h : ¬ a.toNat < 0x2000) (h' : a.toNat < 0x3F00) :
    ppuCell m a.toNat = (1, ntIndex m a) := by
  refine ((if_neg h).trans (if_pos h')).trans (congrArg (Prod.mk 1) ?_)
  cases m <;> simp only [ntIndex] <;> omega

theorem ppuCell_palette (h : ¬ a.toNat < 0x3F00) : ppuCell m a.toNat = (2, palIndex a) := by
  unfold ppuCell
  rw [if_neg (by omega), if_neg h, palIndex_eq]

end

/-! ### Reads and writes by cell -/

/-- The byte in a cell of the PPU's address space: of CHR, of the video RAM or of the palette. -/
def ppuCellRead (p : Ppu) (c : Cart) (x : Nat × Nat) : Byte :=
  match x.1 with
  | 0 => c.chr.read x.2
  | 1 => p.vram.read x.2
  | _ => p.pal.read x.2

theorem ppuRead_eq_cell (p : Ppu) {c : Cart} (hn : c.variant = .nrom) (a : BitVec 14) :
    ppuRead p c a = ppuCellRead p c (ppuCell c.mirroring a.toNat) := by
  rw [ppuRead]
  split_ifs with hpattern hnametable
  · rw [ppuCell_pattern _ hpattern, Cart.chrRead_nrom hn]; rfl
  · rw [ppuCell_nametable _ hpattern hnametable, Cart.mirror_nrom hn]; rfl
  · rw [ppuCell_palette _ hnametable]; rfl

/-- There are three kinds of cell. -/
theorem ppuCell_kind (m : Mirroring) (a : BitVec 14) :
    (∃ k, ppuCell m a.toNat = (0, k)) ∨ (∃ k, ppuCell m a.toNat = (1, k)) ∨
      ∃ k, ppuCell m a.toNat = (2, k) := by
  by_cases hpattern : a.toNat < 0x2000
  · exact .inl ⟨_, ppuCell_pattern m hpattern⟩
  · by_cases hnametable : a.toNat < 0x3F00
    · exact .inr (.inl ⟨_, ppuCell_nametable m hpattern hnametable⟩)
    · exact .inr (.inr ⟨_, ppuCell_palette m hnametable⟩)

/-- A palette cell keeps the low six bits. -/
theorem ofNat_mod_64 (v : Byte) : BitVec.ofNat 8 (v.toNat % 64) = v &&& 0x3F#8 := by
  apply BitVec.eq_of_toNat_eq
  have hmod : v.toNat % 64 < 2 ^ 8 := by omega
  rw [BitVec.toNat_and, BitVec.toNat_ofNat, Nat.mod_eq_of_lt hmod]
  exact (Nat.and_two_pow_sub_one_eq_mod _ 6).symm

section
variable {p : Ppu} {c : Cart} (hp : p.wf = true) (hn : c.variant = .nrom) (hc : c.wf = true)
  (k : Nat) (v : Byte) (m : Mirroring) (b : BitVec 14)

include hn hc in
theorem ppuCellRead_chr_write :
    ppuCellRead p { c with chr := c.chr.write k v } (ppuCell m b.toNat) =
      if (0, k) = ppuCell m b.toNat then v else ppuCellRead p c (ppuCell m b.toNat) := by
  have hchr : Memory.wf 0x2000 c.chr = true := by
    simp only [Cart.wf, hn, Cart.nromWf, Bool.and_eq_true] at hc
    exact hc.2
  rcases ppuCell_kind m b with ⟨j, hj⟩ | ⟨j, hj⟩ | ⟨j, hj⟩
  · simp [hj, ppuCellRead, Memory.read_write hchr, eq_comm]
  · simp [hj, ppuCellRead]
  · simp [hj, ppuCellRead]

include hp in
theorem ppuCellRead_vram_write :
    ppuCellRead { p with vram := p.vram.write k v } c (ppuCell m b.toNat) =
      if (1, k) = ppuCell m b.toNat then v else ppuCellRead p c (ppuCell m b.toNat) := by
  have hvram : Memory.wf 0x800 p.vram = true := by
    simp only [Ppu.wf, Bool.and_eq_true] at hp
    obtain ⟨⟨⟨⟨hvram, -⟩, -⟩, -⟩, -⟩ := hp
    exact hvram
  rcases ppuCell_kind m b with ⟨j, hj⟩ | ⟨j, hj⟩ | ⟨j, hj⟩
  · simp [hj, ppuCellRead]
  · simp [hj, ppuCellRead, Memory.read_write hvram, eq_comm]
  · simp [hj, ppuCellRead]

include hp in
theorem ppuCellRead_pal_write :
    ppuCellRead { p with pal := p.pal.write k v } c (ppuCell m b.toNat) =
      if (2, k) = ppuCell m b.toNat then v else ppuCellRead p c (ppuCell m b.toNat) := by
  have hpal : Memory.wf 32 p.pal = true := by
    simp only [Ppu.wf, Bool.and_eq_true] at hp
    obtain ⟨⟨⟨⟨-, hpal⟩, -⟩, -⟩, -⟩ := hp
    exact hpal
  rcases ppuCell_kind m b with ⟨j, hj⟩ | ⟨j, hj⟩ | ⟨j, hj⟩
  · simp [hj, ppuCellRead]
  · simp [hj, ppuCellRead]
  · simp [hj, ppuCellRead, Memory.read_write hpal, eq_comm]

end

/-- Settles O47: a write goes to the one cell of its address, or to none in CHR-ROM, and a read looks at
the cell of its own. -/
theorem ppuAddressSpace : Obligations.PpuAddressSpace := by
  intro p c a b v hn hp hc
  dsimp only
  rw [ppuWrite]
  by_cases hpattern : a.toNat < 0x2000
  case pos =>
    rw [if_pos hpattern, if_pos hpattern, ppuCell_pattern _ hpattern, Cart.chrWrite_nrom hn]
    cases hram : c.chrRam
    case false => simp
    case true =>
      simp only [if_true]
      rw [ppuRead_eq_cell p hn, ppuRead_eq_cell p (by exact hn)]
      exact ppuCellRead_chr_write hn hc _ _ _ _
  case neg =>
    rw [if_neg hpattern, if_neg hpattern]
    by_cases hnametable : a.toNat < 0x3F00
    case pos =>
      rw [if_pos hnametable, if_pos hnametable, ppuCell_nametable _ hpattern hnametable, Cart.mirror_nrom hn,
        ppuRead_eq_cell _ hn, ppuRead_eq_cell _ hn]
      exact ppuCellRead_vram_write hp _ _ _ _
    case neg =>
      rw [if_neg hnametable, if_neg hnametable, ppuCell_palette _ hnametable, ofNat_mod_64,
        ppuRead_eq_cell _ hn, ppuRead_eq_cell _ hn]
      exact ppuCellRead_pal_write hp _ _ _ _

end Sys2Proof.Machine

/-! PROOFS for O59: loading an iNES image (20_memory.md R83). -/

namespace Sys2Proof.Machine

/-! ### The array of a list of bytes -/

theorem Memory.read_ofBytesFrom_below (bytes : List Byte) {start a : Nat} (h : a < start) :
    (Memory.ofBytesFrom start bytes).read a = 0#8 := by
  induction bytes generalizing start with
  | nil => rfl
  | cons b rest ih =>
    rw [Memory.ofBytesFrom]
    split
    case isTrue => exact ih (by omega)
    case isFalse =>
      have hne : start ≠ a := by omega
      exact (if_neg hne).trans (ih (by omega))

theorem Memory.read_ofBytesFrom (bytes : List Byte) (start : Nat) {k : Nat} (h : k < bytes.length) :
    some ((Memory.ofBytesFrom start bytes).read (start + k)) = bytes[k]? := by
  induction bytes generalizing start k with
  | nil => exact absurd h (Nat.not_lt_zero k)
  | cons b rest ih =>
    rw [Memory.ofBytesFrom]
    cases k with
    | zero =>
      split
      case isTrue hb =>
        rw [Nat.add_zero start, Memory.read_ofBytesFrom_below rest (Nat.lt_add_one start), hb]
        rfl
      case isFalse => exact congrArg some (if_pos rfl)
    | succ j =>
      have hrest : some ((Memory.ofBytesFrom (start + 1) rest).read (start + (j + 1))) = rest[j]? := by
        rw [← Nat.add_assoc, Nat.add_right_comm]
        exact ih (start + 1) (Nat.lt_of_succ_lt_succ h)
      rw [List.getElem?_cons_succ, ← hrest]
      split
      case isTrue => rfl
      case isFalse =>
        have hne : start ≠ start + (j + 1) := by omega
        exact congrArg some (if_neg hne)

theorem Memory.read_ofBytes (bytes : List Byte) {k : Nat} (h : k < bytes.length) :
    some ((Memory.ofBytes bytes).read k) = bytes[k]? := by
  have hread := Memory.read_ofBytesFrom bytes 0 h
  rwa [Nat.zero_add] at hread

theorem Memory.wf_ofBytes {size : Nat} {bytes : List Byte} (h : bytes.length ≤ size) :
    Memory.wf size (Memory.ofBytes bytes) = true :=
  Memory.wf_ofBytesFrom bytes 0 (by omega)

/-! ### The header -/

theorem high_nibble_toNat : ∀ b : Byte, (b &&& 0xF0#8).toNat = (b.toNat / 16) <<< 4 := by
  decide

theorem headerMapper_eq (f6 f7 : Byte) : headerMapper f6 f7 = f7.toNat / 16 * 16 + f6.toNat / 16 := by
  have hlow : f6.toNat / 16 < 2 ^ 4 := by have := f6.isLt; omega
  rw [headerMapper, BitVec.toNat_or, high_nibble_toNat, BitVec.toNat_ushiftRight, Nat.shiftRight_eq_div_pow,
    ← Nat.shiftLeft_add_eq_or_of_lt hlow, Nat.shiftLeft_eq]

theorem nromHeader_iff (np nc f6 : Byte) : nromHeader np nc f6 = true ↔
    (np.toNat = 1 ∨ np.toNat = 2) ∧ nc.toNat ≤ 1 ∧ f6.getLsbD 3 = false := by
  simp [nromHeader, and_assoc]

/-- What a loader answers once the magic and the size are found right. -/
def loadSized (np nc f6 f7 : Byte) (body : List Byte) : Except LoadError Cart :=
  match variantOf (headerMapper f6 f7) with
  | none => .error (.unsupportedMapper (headerMapper f6 f7))
  | some v => if nromHeader np nc f6 then .ok (buildCart v np nc f6 body) else .error .formatError

theorem loadImage_of_header (np nc f6 f7 : Byte) (body : List Byte) : ∀ ignored : List Byte,
  ignored.length = 8 →
    loadImage ([0x4E#8, 0x45#8, 0x53#8, 0x1A#8, np, nc, f6, f7] ++ ignored ++ body) =
      if sizeMatches np nc f6 body then loadSized np nc f6 f7 body else .error .formatError
  | [_, _, _, _, _, _, _, _], _ => if_congr (and_iff_right rfl) rfl rfl

theorem loadSized_other {np nc f6 f7 : Byte} (body : List Byte) (h : headerMapper f6 f7 ≠ 0) :
    loadSized np nc f6 f7 body = .error (.unsupportedMapper (headerMapper f6 f7)) := by
  rw [loadSized, variantOf, if_neg h]

theorem loadSized_nrom {np nc f6 f7 : Byte} (body : List Byte) (h : headerMapper f6 f7 = 0) :
    loadSized np nc f6 f7 body =
      if nromHeader np nc f6 then .ok (buildCart .nrom np nc f6 body) else .error .formatError := by
  rw [loadSized, variantOf, if_pos h]

/-! ### The cartridge of an accepted image -/

section
variable {np nc f6 : Byte} {body : List Byte}
  (hsize : body.length = trainerSize f6 + np.toNat * 16384 + nc.toNat * 8192)
include hsize

theorem buildCart_prg_read (v : CartVariant) {k : Nat} (hk : k < np.toNat * 16384) :
    some ((buildCart v np nc f6 body).prg.read k) = body[trainerSize f6 + k]? := by
  have hlength : k < ((body.drop (trainerSize f6)).take (np.toNat * 0x4000)).length := by
    rw [List.length_take, List.length_drop]
    omega
  rw [buildCart, Memory.read_ofBytes _ hlength, List.getElem?_take_of_lt hk, List.getElem?_drop]

theorem buildCart_chr_read (v : CartVariant) {k : Nat} (hk : k < nc.toNat * 8192) :
    some ((buildCart v np nc f6 body).chr.read k) = body[trainerSize f6 + np.toNat * 16384 + k]? := by
  have hlength : k < ((body.drop (trainerSize f6)).drop (np.toNat * 0x4000)).length := by
    rw [List.length_drop, List.length_drop]
    omega
  rw [buildCart, Memory.read_ofBytes _ hlength, List.getElem?_drop, List.getElem?_drop, Nat.add_assoc]

theorem buildCart_wf (hnp : np.toNat = 1 ∨ np.toNat = 2) (hnc : nc.toNat ≤ 1) :
    (buildCart .nrom np nc f6 body).wf = true := by
  have hprg : ((body.drop (trainerSize f6)).take (np.toNat * 0x4000)).length ≤ np.toNat * 0x4000 :=
    List.length_take_le _ _
  have hchr : ((body.drop (trainerSize f6)).drop (np.toNat * 0x4000)).length ≤ 0x2000 := by
    rw [List.length_drop, List.length_drop]
    omega
  have hbanks : np.toNat * 0x4000 = 0x4000 ∨ np.toNat * 0x4000 = 0x8000 := by omega
  simp only [Cart.wf, Cart.nromWf, buildCart, Bool.and_eq_true, Bool.or_eq_true]
  exact ⟨⟨hbanks.imp decide_eq_true decide_eq_true, Memory.wf_ofBytes hprg⟩, Memory.wf_ofBytes hchr⟩

end

/-- Settles O59: the loader's branches in order, and the cartridge that `buildCart` makes. -/
theorem imageLoading : Obligations.ImageLoading := by
  refine ⟨fun image hshort => ?short, fun image hmagic => ?magic,
    fun np nc f6 f7 ignored body hignored => ?header⟩
  case short =>
    unfold loadImage
    split
    · simp only [List.length_cons] at hshort
      omega
    · rfl
  case magic =>
    unfold loadImage
    split
    · exact if_neg fun h => hmagic h.1
    · rfl
  case header =>
    intro image trainer mapper sized
    have hload : loadImage image = if sizeMatches np nc f6 body then loadSized np nc f6 f7 body
        else .error .formatError := loadImage_of_header np nc f6 f7 body ignored hignored
    have hmapper : headerMapper f6 f7 = mapper := headerMapper_eq f6 f7
    have hsized : sizeMatches np nc f6 body = true ↔ sized := decide_eq_true_iff
    refine ⟨fun hs => ⟨.formatError, ?unsized⟩, fun hs hm => ?other, fun hm hbad => ?refused,
      fun hs hm hnp hnc hfour => ⟨buildCart .nrom np nc f6 body, ?accepted, rfl, rfl,
        fun k hk => buildCart_prg_read hs .nrom hk, rfl, fun k hk => buildCart_chr_read hs .nrom hk, rfl,
        buildCart_wf hs hnp hnc⟩⟩
    case unsized => rw [hload, if_neg (hsized.not.mpr hs)]
    case other => rw [hload, if_pos (hsized.mpr hs), loadSized_other body (hmapper.trans_ne hm), hmapper]
    case refused =>
      rw [hload]
      split
      case isFalse => rfl
      case isTrue hs =>
        rw [loadSized_nrom body (hmapper.trans hm), if_neg]
        rw [nromHeader_iff]
        rintro ⟨hnp, hnc, hfour⟩
        rcases hbad with h | h | h | h | h
        · exact h (hsized.mp hs)
        · omega
        · omega
        · omega
        · exact absurd (hfour.symm.trans h) Bool.false_ne_true
    case accepted =>
      rw [hload, if_pos (hsized.mpr hs), loadSized_nrom body (hmapper.trans hm),
        if_pos ((nromHeader_iff np nc f6).mpr ⟨hnp, hnc, hfour⟩)]

end Sys2Proof.Machine

/-! PROOFS for O60: host access, save and load (60_exceptions.md R302, R303). -/

namespace Sys2Proof.Machine

theorem hostRead_of_error {a : Word} {s : State} {r : Refusal} (h : memRead a s = .error r) :
    hostRead a s = .error r := by
  simp only [hostRead, h]

theorem hostWrite_of_error {a : Word} {v : Byte} {s : State} {r : Refusal} (h : memWrite a v s = .error r) :
    hostWrite a v s = .error r := by
  simp only [hostWrite, h]

theorem hostRead_of_ok {a : Word} {s t : State} {b : Byte} (h : memRead a s = .ok (b, t)) :
    hostRead a s = .ok (b, settleDma t) := by
  simp only [hostRead, h]

theorem hostWrite_of_ok {a : Word} {v : Byte} {s t : State} (h : memWrite a v s = .ok t) :
    hostWrite a v s = .ok (settleDma t) := by
  simp only [hostWrite, h]

theorem settleDma_of_zero {s : State} (h : s.dmaExtra = 0) : settleDma s = s := by
  cases s
  cases h
  rfl

/-- A host write of $4014 is a DMA, whose stall goes to `wait`. -/
theorem hostWrite_dma {v : Byte} {s t : State} (h : hostWrite 0x4014#16 v s = .ok t) :
    t.wait = s.wait + (513 + s.cyc % 2) ∧ t.dmaExtra = 0 ∧ t.cyc = s.cyc ∧ t.pc = s.pc := by
  cases hwrite : memWrite 0x4014#16 v s with
  | error r => exact nomatch h.symm.trans (hostWrite_of_error hwrite)
  | ok u =>
    cases h.symm.trans (hostWrite_of_ok hwrite)
    have hsame := memWrite_same hwrite
    rw [memWrite_dma] at hwrite
    have hwait : u.wait = s.wait := by rw [hsame]
    have hcyc : u.cyc = s.cyc := by rw [hsame]
    have hpc : u.pc = s.pc := by rw [hsame]
    exact ⟨congrArg₂ (· + ·) hwait (oamDma_stall hwrite).1, rfl, hcyc, hpc⟩

/-- A RAM byte that the host writes is read back; no DMA stall is outstanding. -/
theorem hostWrite_ram {a : Word} (v : Byte) {s : State} (hs : s.Inv) (ha : a.toNat < 0x2000) :
    let t := s.setRam (s.ram.write (a.toNat % 0x800) v)
    hostWrite a v s = .ok t ∧ hostRead a t = .ok (v, t) := by
  obtain ⟨hform, hdma⟩ := inv_iff.mp hs
  refine ⟨?write, ?read⟩
  case write => rw [hostWrite_of_ok (memWrite_ram v ha), settleDma_of_zero (by exact hdma)]
  case read =>
    rw [hostRead_of_ok (memRead_ram ha), settleDma_of_zero (by exact hdma), State.setRam_ram,
      Memory.read_write_same hform.ram]

/-- The console's own constants are those of the saved state, so loading puts nothing else in their place. -/
theorem load_saved {s t : State} (h : SameRom s t) : loadState (saveState s) t = .ok s := by
  obtain ⟨hcart, hrom, hparams⟩ := h
  have hchr : (if t.cart.chrRam then s.cart.chr else t.cart.chr) = s.cart.chr := by
    split
    case isTrue => rfl
    case isFalse hr =>
      rw [hcart] at hr
      exact hrom (Bool.eq_false_iff.mpr hr)
  have hload : loadState (saveState s) t = .ok { s with
      params := t.params
      cart := { t.cart with
        regs := s.cart.regs, chr := if t.cart.chrRam then s.cart.chr else t.cart.chr } } := if_pos rfl
  rw [hload, hchr, hparams, hcart]

/-- Settles O60: host access is a bus access followed by `settleDma`, and a bus access leaves `wait` and
`cyc` alone. -/
theorem hostAccessSaveAndLoad : Obligations.HostAccessSaveAndLoad := by
  refine ⟨fun a b s t h => ?read, fun a v s t h => ?write,
    fun a v s r => ⟨hostRead_of_error, hostWrite_of_error⟩, fun v s t h => ?dma,
    fun a v s hs ha => ?ram, fun s t => load_saved, fun b s h => if_neg h, fun s => if_pos rfl⟩
  case read =>
    have hsame := memRead_same h
    have hwait : t.wait + t.dmaExtra = s.wait + s.dmaExtra := by rw [hsame]
    rw [hostRead_of_ok h, ← hwait]
    exact ⟨rfl, by rw [hsame]⟩
  case write =>
    have hsame := memWrite_same h
    have hwait : t.wait = s.wait := by rw [hsame]
    rw [hostWrite_of_ok h, ← hwait]
    exact ⟨rfl, by rw [hsame]⟩
  case dma =>
    rw [Nat.add_assoc]
    exact hostWrite_dma h
  case ram =>
    obtain ⟨hwrite, hread⟩ := hostWrite_ram v hs ha
    exact ⟨_, hwrite, hread, rfl⟩

end Sys2Proof.Machine
